-- ==== Sys2Proof/Word.lean ====
section
/-! DEFINITION. The word types of the unit: bytes of frames and the 16-bit check register. -/

namespace Sys2Proof

/-- One byte on a line or on the tap. -/
abbrev Byte := BitVec 8

/-- The register of the check computation (R196). -/
abbrev Word16 := BitVec 16

/-- A delimited frame: its bytes in the order sent, byte 0 first (chapter 11). -/
abbrev Frame := List Byte

end Sys2Proof
end

