-- ==== Sys2Proof/Syntax.lean ====
section
/-! DEFINITION. The commands of the unit: one constructor of Instr per row of spec/opcode_table.json, with the row's operands. -/

namespace Sys2Proof

/-- The three traffic ports (00 3.01). -/
inductive Port where
  | east
  | west
  | tap
deriving DecidableEq, Repr

/-- The two line ports. -/
inductive Line where
  | east
  | west
deriving DecidableEq, Repr

/-- The four route banks (R1). -/
inductive Bank where
  | b0
  | b1
  | b2
  | b3
deriving DecidableEq, Repr

/-- The operations and events of the unit, each whole and indivisible (spec/95_what_each_step_holds.md).
A request kind stands for its DISPATCH on a port: tag and parameter bytes as received (R149 to R154; log 8).
A read completion says whether the cells had lost their margin (R10, Table 2-1; log 9), a program completion whether
it passed (R8), an erase event how long the erase ran since its last start or resume, in µs (R69; log 7). -/
inductive Instr where
  /-- POWER_ON (R181). -/
  | powerOn
  /-- LOSS_OF_POWER (R181). -/
  | lossOfPower
  /-- RESET_ASSERTION (R179). -/
  | resetAssertion
  /-- RESET_RELEASE (R180). -/
  | resetRelease
  /-- GUARD_RELEASE_CHANGE (R177): the level it changes to. -/
  | guardReleaseChange (asserted : Bool)
  /-- FRAME_ARRIVAL (R123, R124): a delimited frame, whatever its bytes. -/
  | frameArrival (port : Port) (frame : Frame)
  /-- LOOKUP_READ_COMPLETION (R130): the read in flight for the lookup stage of a port. -/
  | lookupReadCompletion (port : Port) (marginLost : Bool)
  /-- READ_SLOT_COMPLETION (R104): the read in flight in a bank for a READ SLOT. -/
  | readSlotCompletion (bank : Bank) (marginLost : Bool)
  /-- SOURCE_READ_COMPLETION (R82). -/
  | sourceReadCompletion (marginLost : Bool)
  /-- HOLD_TIMER_EXPIRY (R101): of the read queued for the lookup stage of a port. -/
  | holdTimerExpiry (port : Port)
  /-- LINE_TRANSMISSION_COMPLETION (R136). -/
  | lineTransmissionCompletion (line : Line)
  /-- TAP_TRANSMISSION_COMPLETION (R137). -/
  | tapTransmissionCompletion
  /-- PROGRAM_DEADLINE_EXPIRY (R19). -/
  | programDeadlineExpiry
  /-- WRITE_PROGRAM_COMPLETION (R52). -/
  | writeProgramCompletion (pass : Bool)
  /-- SEAL_PROGRAM_COMPLETION (R54). -/
  | sealProgramCompletion (pass : Bool)
  /-- SETTLE_PROGRAM_COMPLETION (R56). -/
  | settleProgramCompletion (pass : Bool)
  /-- VOID_PROGRAM_COMPLETION (R59). -/
  | voidProgramCompletion (pass : Bool)
  /-- ERASE_COMPLETION (R70). -/
  | eraseCompletion (ranUs : Nat)
  /-- STAMP_PROGRAM_COMPLETION (R71). -/
  | stampProgramCompletion (pass : Bool)
  /-- SUSPEND_COMPLETION (R73). -/
  | suspendCompletion (ranUs : Nat)
  /-- STOP_COMPLETION (R69). -/
  | stopCompletion (ranUs : Nat)
  /-- ERASE_TIMEOUT_EXPIRY (R69). -/
  | eraseTimeoutExpiry
  /-- RUN_INTERVAL_TIMER_EXPIRY (R73). -/
  | runIntervalTimerExpiry
  /-- IDLE_TIMER_EXPIRY (R40). -/
  | idleTimerExpiry
  /-- CONFIG_ERASE_COMPLETION (R170). -/
  | configEraseCompletion
  /-- CONFIG_STAMP_COMPLETION (R170). -/
  | configStampCompletion (pass : Bool)
  /-- CONFIG_ERASE_TIMEOUT (R171). -/
  | configEraseTimeout
  /-- CONFIG_STOP_COMPLETION (R171). -/
  | configStopCompletion
  /-- CONFIG_WRITE_COMPLETION (R172). -/
  | configWriteCompletion (pass : Bool)
  /-- CONFIG_VOID_COMPLETION (R173). -/
  | configVoidCompletion (pass : Bool)
  /-- HEADER_READ_COMPLETION (R185). -/
  | headerReadCompletion (marginLost : Bool)
  /-- SLOT_SCAN_READ_COMPLETION (R186). -/
  | slotScanReadCompletion (marginLost : Bool)
  /-- REPAIR_PROGRAM_COMPLETION (R193). -/
  | repairProgramCompletion (pass : Bool)
  /-- RESTART_DRAIN_EXPIRY (R118). -/
  | restartDrainExpiry
  /-- STATUS (R159). -/
  | status (port : Port) (tag : Byte) (params : List Byte)
  /-- DESCRIBE (R161). -/
  | describe (port : Port) (tag : Byte) (params : List Byte)
  /-- READ_SLOT (R103). -/
  | readSlot (port : Port) (tag : Byte) (params : List Byte)
  /-- READ_INDEX (R31). -/
  | readIndex (port : Port) (tag : Byte) (params : List Byte)
  /-- READ_COUNTERS (R143), as a read. -/
  | readCounters (port : Port) (tag : Byte) (params : List Byte)
  /-- READ_COUNTERS_WITH_CLEAR (R143): the port byte; the clear flag is 0x01. -/
  | readCountersWithClear (port : Port) (tag : Byte) (named : Byte)
  /-- READ_FAULTS (R121). -/
  | readFaults (port : Port) (tag : Byte) (params : List Byte)
  /-- READ_CONFIG (R165). -/
  | readConfig (port : Port) (tag : Byte) (params : List Byte)
  /-- CLEAR_FAULTS (R122). -/
  | clearFaults (port : Port) (tag : Byte) (params : List Byte)
  /-- STAGE (R36). -/
  | stage (port : Port) (tag : Byte) (params : List Byte)
  /-- UNSTAGE (R38). -/
  | unstage (port : Port) (tag : Byte) (params : List Byte)
  /-- ABANDON (R114). -/
  | abandon (port : Port) (tag : Byte) (params : List Byte)
  /-- SET_MODE_RUN (R183): the mode byte is RUN. -/
  | setModeRun (port : Port) (tag : Byte)
  /-- SET_MODE_BYPASS (R183): the mode byte is BYPASS. -/
  | setModeBypass (port : Port) (tag : Byte)
  /-- COMMIT (R42). -/
  | commit (port : Port) (tag : Byte) (params : List Byte)
  /-- ERASE (R65). -/
  | erase (port : Port) (tag : Byte) (params : List Byte)
  /-- RECLAIM (R80). -/
  | reclaim (port : Port) (tag : Byte) (params : List Byte)
  /-- SET_CONFIG (R166). -/
  | setConfig (port : Port) (tag : Byte) (params : List Byte)
  /-- RESTART (R117). -/
  | restart (port : Port) (tag : Byte) (params : List Byte)
deriving DecidableEq, Repr

end Sys2Proof
end

