-- ==== Sys2Proof/Decode.lean ====
section
/-! DEFINITION. Decoding of command words: spec/opcode_table.json gives no row any bits, so no word spells a command. -/

namespace Sys2Proof

/-- The command that a word spells by the table's bits. The table's rows carry no bits ("fields": [] in every row and
no match or mask), so every word is rejected (log 21). The bytes of management requests are not command words: they
are decoded by Machine/Operands.lean. -/
def decodeTableWord (_nbits _w : Nat) : Option Instr :=
  none

end Sys2Proof
end

