-- ==== Sys2Proof/Config.lean ====
section
/-! DEFINITION. What the part fixes: capacities, durations, limits, and the two values fixed at manufacture (free values). -/

namespace Sys2Proof.Config

/-- Slots of a route segment (R1). -/
def slotsPerSegment : Nat := 64
/-- Slots of a configuration segment (R1). -/
def slotsPerCfgSegment : Nat := 16
/-- Route segments, ids 0..31 (R1). -/
def routeSegments : Nat := 32
/-- All segments, ids 0..33 (R1). -/
def segments : Nat := 34
/-- Segment id of CA (R1). -/
def segCA : Nat := 32
/-- Segment id of CB (R1). -/
def segCB : Nat := 33
/-- Highest routable channel (R23). -/
def maxChannel : Nat := 4095
/-- Highest issue number a record may carry (R45). -/
def maxIssue : Nat := 4294967294
/-- The counter value that is never assigned (R45). -/
def issueEnd : Nat := 4294967295
/-- Erase endurance (R11). -/
def wornCount : Nat := 100000
/-- Frames of an ingress FIFO (R124). -/
def ingressCapacity : Nat := 16
/-- Frames of a traffic FIFO (R135). -/
def trafficCapacity : Nat := 16
/-- Replies of a reply FIFO (R135). -/
def replyCapacity : Nat := 4
/-- Frames of the tap delivery FIFO (R137). -/
def deliveryCapacity : Nat := 32
/-- Requests of the Request Queue (R105). -/
def queueCapacity : Nat := 8
/-- Records of the Fault List (R119). -/
def faultCapacity : Nat := 8
/-- Highest overflow count (R119). -/
def overflowMax : Nat := 255
/-- Entries of the Staging Buffer (R34). -/
def stagingCapacity : Nat := 16
/-- Images of one STAGE (R36). -/
def imagesPerStage : Nat := 8
/-- Entries of one relocation group (R81). -/
def groupSize : Nat := 16
/-- Channels of one READ INDEX (R31). -/
def indexRun : Nat := 32
/-- Highest payload length of a frame (R123). -/
def maxPayload : Nat := 240
/-- Payload bytes of the management fields (R144). -/
def managementBytes : Nat := 6
/-- Highest counter value; an increment there leaves it (R142). -/
def counterMax : Nat := 4294967295
/-- Failed checks at which a frame is discarded (R131). -/
def failedCheckLimit : Nat := 3
/-- The broadcast station (R147). -/
def broadcastStation : Nat := 65535

/-- Program deadline in µs (R18). -/
def programDeadlineUs : Nat := 1000
/-- Typical slot program in µs (R18). -/
def typicalProgramUs : Nat := 150
/-- Typical erase active time in ms (R21). -/
def typicalEraseMs : Nat := 80
/-- Erase timeout on active time in ms (R21). -/
def eraseTimeoutMs : Nat := 300
/-- Minimum run of an erase in µs (R67, R73). -/
def minimumRunUs : Nat := 1500
/-- Staging idle timer in µs (R39). -/
def idleTimerUs : Nat := 5000000
/-- Restart drain limit in µs (R118). -/
def restartDrainUs : Nat := 20000
/-- One unit of the hold limit in µs (R100). -/
def holdUnitUs : Nat := 50

/-- Family code of DESCRIBE (Table 11-12). -/
def familyCode : Nat := 60
/-- Part number of DESCRIBE (Table 11-12). -/
def partNumber : Nat := 4120

/-- FREE VALUE: the revision less one, so that the revision lies in 1..15, fixed at manufacture (R161; log 16). -/
opaque revisionIndex : Fin 15

/-- FREE VALUE: the factory serial, fixed at manufacture (R161; log 16). -/
opaque factorySerial : BitVec 32

end Sys2Proof.Config
end

