-- ==== Sys2Proof/Machine/State.lean ====
section
/-! DEFINITION. The state of the unit as plain data, the reasons a step can stop, and the state right after reset. -/

namespace Sys2Proof.Machine

/-! ## Things there is one of per port, line or bank -/

/-- One value for each traffic port. -/
structure PerPort (α : Type) where
  east : α
  west : α
  tap : α
deriving DecidableEq, Repr

/-- One value for each line port. -/
structure PerLine (α : Type) where
  east : α
  west : α
deriving DecidableEq, Repr

/-- One value for each route bank. -/
structure PerBank (α : Type) where
  b0 : α
  b1 : α
  b2 : α
  b3 : α
deriving DecidableEq, Repr

/-- Sparse data by key in one canonical form: keys strictly rising, no value equal to what an unlisted key reads as. -/
abbrev Table (α : Type) := List (Nat × α)

/-! ## The Route Store: records, slots, headers (chapter 1) -/

/-- A slot address: segment id and slot (R1). -/
structure SlotAddr where
  seg : Nat
  slot : Nat
deriving DecidableEq, Repr

/-- A set of arrival ports (Table 1-1, accept). -/
structure PortSet where
  east : Bool
  west : Bool
  tap : Bool
deriving DecidableEq, Repr

/-- What is done with a matching frame (Table 1-1, action). -/
inductive Action where
  | pass
  | deliver
  | passAndDeliver
  | discard
deriving DecidableEq, Repr

/-- The fields that only a ROUTE carries (Table 1-1). -/
structure RouteFields where
  accept : PortSet
  action : Action
  outChannel : Option Nat
  tapSide : Option Line
deriving DecidableEq, Repr

/-- The kind of a batch entry, with what a ROUTE carries. -/
inductive EntryKind where
  | route (f : RouteFields)
  | withdraw
deriving DecidableEq, Repr

/-- An entry image (Table 3-1): a ROUTE or WITHDRAW record without state and issue number. -/
structure Entry where
  channel : Nat
  kind : EntryKind
deriving DecidableEq, Repr

/-- What a programmed slot holds besides its state and issue (Table 1-1). -/
inductive Content where
  | entry (e : Entry)
  | seal (count : Nat)
deriving DecidableEq, Repr

/-- The states in which a slot's fields are read (R4). -/
inductive RecState where
  | pending
  | live
  | retired
deriving DecidableEq, Repr

/-- A route slot record (Table 1-1). -/
structure SlotRecord where
  state : RecState
  issue : Nat
  content : Content
deriving DecidableEq, Repr

/-- A route slot: BLANK, a record, VOID, or left indeterminate by a failed or cut-short program or erase (R4, R6, R9). -/
inductive Slot where
  | blank
  | written (r : SlotRecord)
  | void
  | indeterminate
deriving DecidableEq, Repr

/-- No-route action (Table 9-1). -/
inductive NoRouteAction where
  | discard
  | deliver
deriving DecidableEq, Repr

/-- Start mode, and the parameter of SET MODE (Table 9-1, R183). -/
inductive Mode where
  | run
  | bypass
deriving DecidableEq, Repr

/-- A configuration record (Table 9-1). -/
structure ConfigRecord where
  station : Nat
  holdLimit : Nat
  noRoute : NoRouteAction
  guardLow : Nat
  guardHigh : Nat
  startMode : Mode
deriving DecidableEq, Repr

/-- A configuration record as a SET CONFIG carries it, its codes not yet judged (R166, R167). -/
structure ConfigImage where
  station : Nat
  holdLimit : Nat
  noRoute : Nat
  guardLow : Nat
  guardHigh : Nat
  startMode : Nat
deriving DecidableEq, Repr

/-- A configuration slot (R5, R163). -/
inductive CfgSlot where
  | blank
  | live (issue : Nat) (values : ConfigRecord)
  | void
  | indeterminate
deriving DecidableEq, Repr

/-- A segment header as it reads (R10): stamped valid with its erase count, or unstamped. -/
inductive Header where
  | stamped (count : Nat)
  | unstamped
deriving DecidableEq, Repr

/-- The persistent storage. Unlisted route slots and configuration slots are BLANK, unlisted headers are as delivered
(stamped with erase count 0, R10). -/
structure Store where
  slots : Table Slot
  cfgSlots : Table CfgSlot
  headers : Table Header
deriving DecidableEq, Repr

/-! ## Programs and reads (R18 to R20) -/

/-- The programs issued to route slots (Table 1-2). -/
inductive SlotWrite where
  /-- BLANK to PENDING, with kind, issue and content. -/
  | entry (issue : Nat) (e : Entry)
  /-- BLANK to LIVE, a SEAL. -/
  | seal (issue : Nat) (count : Nat)
  /-- PENDING to LIVE. -/
  | promote
  /-- PENDING or LIVE to RETIRED. -/
  | retire
  /-- Any state to VOID. -/
  | void
deriving DecidableEq, Repr

/-- What a program writes, and where. -/
inductive Job where
  | slot (a : SlotAddr) (w : SlotWrite)
  | stamp (seg : Nat) (count : Nat)
  | cfgRecord (a : SlotAddr) (issue : Nat) (values : ConfigRecord)
  | cfgVoid (a : SlotAddr)
deriving DecidableEq, Repr

/-- In whose behalf a program runs: which of the completion commands ends it. -/
inductive ProgramRole where
  | write
  | seal
  | settle
  | void
  | stamp
  | configStamp
  | configWrite
  | configVoid
  | repair
deriving DecidableEq, Repr

/-- A program, claimed or in progress. -/
structure Program where
  role : ProgramRole
  job : Job
deriving DecidableEq, Repr

/-- What a read reads. -/
inductive ReadTarget where
  | slot (a : SlotAddr)
  | header (seg : Nat)
deriving DecidableEq, Repr

/-- A port and a tag: the request that work is done for. -/
structure Origin where
  port : Port
  tag : Byte
deriving DecidableEq, Repr

/-- The party a read is performed for (R90). -/
inductive ReadParty where
  | lookup (p : Port)
  | readSlot (o : Origin)
  | engine
deriving DecidableEq, Repr

/-- What a slot read reports (R20). -/
inductive ReadResult where
  | blank
  | void
  | record (r : SlotRecord)
  | marginFail
  | unreadable
deriving DecidableEq, Repr

/-! ## Bank Access Units (chapter 5) -/

/-- States of a route bank (Table 5-1). -/
inductive BankState where
  | free
  | draining
  | programming
  | eraseRunning
  | suspendWait
  | eraseSuspended
deriving DecidableEq, Repr

/-- The read in flight of a bank; counted when the claim marker counts it (R95, R96). -/
structure InFlight where
  target : ReadTarget
  party : ReadParty
  counted : Bool
deriving DecidableEq, Repr

/-- A read waiting in a bank's queue; its hold timer runs for `holdUnits` units of 50 µs (R90, R100). -/
structure QueuedRead where
  addr : SlotAddr
  stage : Port
  holdUnits : Nat
  counted : Bool
deriving DecidableEq, Repr

/-- An engine claim (R95). -/
inductive Claim where
  | program (p : Program)
  | erase (seg : Nat)
  | resume (seg : Nat)
  | read (t : ReadTarget)
deriving DecidableEq, Repr

/-- A Bank Access Unit (R90). -/
structure BankUnit where
  state : BankState
  inFlight : Option InFlight
  queue : List QueuedRead
  claim : Option Claim
  marker : Nat
  suspended : Option Nat
deriving DecidableEq, Repr

/-- States of the configuration bank (R102). -/
inductive CfgBankState where
  | free
  | programming
  | eraseRunning
deriving DecidableEq, Repr

/-- The Bank Access Unit of the configuration bank (R102), with the mount's read in flight. -/
structure CfgBank where
  state : CfgBankState
  inFlight : Option ReadTarget
deriving DecidableEq, Repr

/-! ## Segments, staging, requests, faults -/

/-- Volatile states of a segment (Table 1-3; configuration segments use CLEAN, OPEN, FILLED and TORN, R163). -/
inductive SegState where
  | clean
  | opened
  | filled
  | faulted
  | erasing
  | torn
deriving DecidableEq, Repr

/-- The volatile values of one segment; each has no value from a reset until the mount gives it one (R15, R64, R163). -/
structure SegVol where
  state : Option SegState
  fill : Option Nat
  inUse : Option Nat
  erases : Option Nat
deriving DecidableEq, Repr

/-- The Staging Buffer (R34). -/
structure Staging where
  entries : List Entry
  owner : Option Port
  timer : Bool
  tag : Option Byte
deriving DecidableEq, Repr

/-- Kind and parameters of a queued request (R105). -/
inductive QueuedKind where
  | commit (batch : List Entry)
  | erase (seg : Nat)
  | reclaim (seg : Nat)
  | setConfig (image : ConfigImage)
  | restart
deriving DecidableEq, Repr

/-- A record of the Request Queue (R105). -/
structure QueuedRequest where
  origin : Origin
  kind : QueuedKind
deriving DecidableEq, Repr

/-- Fault kinds (Table 6-4). -/
inductive FaultKind where
  | writeFault
  | sealFault
  | promoteFault
  | retireFault
  | voidFault
  | eraseTimeout
  | stampFault
  | eraseAborted
  | configFault
  | stageExpired
  | mountRepair
deriving DecidableEq, Repr

/-- A fault record (R120). -/
structure FaultRecord where
  kind : FaultKind
  seg : Option Nat
  slot : Option Nat
  channel : Option Nat
  issue : Option Nat
  origin : Option Origin
deriving DecidableEq, Repr

/-! ## The current operation and its records (chapters 3, 4, 6, 9, 10) -/

/-- Phases of a batch (R51). -/
inductive BatchPhase where
  | write
  | seal
  | settle
deriving DecidableEq, Repr

/-- The program of an entry that SETTLE has claimed or in progress (R56 to R58). -/
inductive SettleStep where
  | promote
  | retirePred
  | retireOwn
  | voidPred
  | voidOwn
deriving DecidableEq, Repr

/-- A slot still to be voided after a WRITE_FAULT or SEAL_FAULT, with the channel its VOID_FAULT would name (R53, R55, R59). -/
structure VoidTarget where
  slot : Nat
  channel : Option Nat
deriving DecidableEq, Repr

/-- The step in progress of a batch (R51). `voiding` holds the failed slot, the failed entry's channel (absent for the
seal) and the slots still to be voided, the first of them in progress. -/
inductive BatchStep where
  | write (k : Nat)
  | seal
  | voiding (failedSlot : Nat) (channel : Option Nat) (todo : List VoidTarget)
  | settle (k : Nat) (step : SettleStep)
deriving DecidableEq, Repr

/-- The record of a batch being written: of a commit (R51) or of a relocation batch (R84). -/
structure Batch where
  origin : Origin
  entries : List Entry
  issue : Nat
  seg : Nat
  first : Nat
  phase : BatchPhase
  step : BatchStep
  preds : List (Option SlotAddr)
  faults : List (List FaultKind)
  voidFails : Nat
deriving DecidableEq, Repr

/-- The tallies of a RECLAIM (R80). -/
structure Tallies where
  moved : Nat
  skipped : Nat
  sealed : Nat
  settleFaulted : Nat
deriving DecidableEq, Repr

/-- The cause of a stop (R68). -/
inductive StopCause where
  | timeout
  | abandon
deriving DecidableEq, Repr

/-- Steps of an erase (Table 4-1); STOPPING with its cause. -/
inductive EraseStep where
  | claimed
  | running
  | waiting
  | suspending
  | suspended
  | stopping (cause : StopCause)
  | stamping
deriving DecidableEq, Repr

/-- The erase record (R68). `reclaim` holds the tallies when the originating request is a RECLAIM; `runTimer` says
whether the run interval timer runs; `held` lists the marks of R73 in the order in which they were taken. -/
structure EraseRec where
  seg : Nat
  origin : Origin
  reclaim : Option Tallies
  step : EraseStep
  activeUs : Nat
  suspensions : Nat
  runTimer : Bool
  held : List StopCause
deriving DecidableEq, Repr

/-- A relocation source: its slot and the channel of the position that names it (R81, R82). -/
structure Source where
  slot : Nat
  channel : Nat
deriving DecidableEq, Repr

/-- What RELOCATE is doing: reading the sources of a group, or writing a relocation batch. -/
inductive RelocateStage where
  | reading (todo : List Source) (images : List Entry)
  | writing (b : Batch)
deriving DecidableEq, Repr

/-- The reclaim record in RELOCATE (R80, R81, R87). -/
structure ReclaimRec where
  seg : Nat
  origin : Origin
  cursor : Nat
  tallies : Tallies
  abandoned : Bool
  stage : RelocateStage
deriving DecidableEq, Repr

/-- The two configuration segments (R1). -/
inductive CfgSeg where
  | ca
  | cb
deriving DecidableEq, Repr

/-- What a configuration write is doing. -/
inductive ConfigStep where
  | erasing
  | stopping
  | stamping
  | writing
  | voiding
deriving DecidableEq, Repr

/-- The configuration write record (R166); ROTATE is the phase at the first three steps, WRITE at the last two.
`rotated` says that a rotation erase was made (Table 9-3). -/
structure ConfigWrite where
  origin : Origin
  new : ConfigRecord
  step : ConfigStep
  target : Option CfgSeg
  rotated : Bool
  issue : Option Nat
  slot : Option SlotAddr
  voidFails : Nat
deriving DecidableEq, Repr

/-- The record of a RESTART: its request and how many replies await transmission (R107, R118). -/
structure RestartRec where
  origin : Origin
  awaiting : Nat
deriving DecidableEq, Repr

/-- Phases of the mount (Table 6-1). -/
inductive MountPhase where
  | headerScan
  | slotScan
  | resolve
  | repair
  | enter
deriving DecidableEq, Repr

/-- A candidate for its channel (R187). -/
structure Candidate where
  channel : Nat
  addr : SlotAddr
  issue : Nat
  isRoute : Bool
  isLive : Bool
deriving DecidableEq, Repr

/-- The programs of REPAIR (R192). -/
inductive RepairAct where
  | void
  | promote
  | retire
deriving DecidableEq, Repr

/-- A program of the repair list: its slot, what it does, the channel it repairs (absent for the voids that come
first), and the channel and issue that the scan recorded for the slot (R192, R193). -/
structure Repair where
  addr : SlotAddr
  act : RepairAct
  group : Option Nat
  recChannel : Option Nat
  recIssue : Option Nat
deriving DecidableEq, Repr

/-- The mount's working state (R184). `headers` lists the results of the headers read so far in segment order, an
absent count meaning unstamped; `slots` and `cfgSlots` the recorded results, unlisted slots being BLANK or not read and
`indeterminate` standing for MARGIN_FAIL; `scan` is the slot whose read is claimed in SLOT SCAN; the first of `repairs`
is claimed or in progress. -/
structure Mount where
  phase : MountPhase
  headers : List (Option Nat)
  scan : SlotAddr
  slots : Table Slot
  cfgSlots : Table CfgSlot
  cands : List Candidate
  repairs : List Repair
deriving DecidableEq, Repr

/-- The current operation with its record (Table 6-1). `erase` is an ERASE, or a RECLAIM in its ERASE phase when its
record holds tallies; `reclaim` is a RECLAIM in RELOCATE. -/
inductive CurrentOp where
  | idle
  | mount (m : Mount)
  | commit (b : Batch)
  | erase (e : EraseRec)
  | reclaim (r : ReclaimRec)
  | configWrite (w : ConfigWrite)
  | restart (r : RestartRec)
deriving DecidableEq, Repr

/-! ## Ports, egress, management (chapters 7 and 8) -/

/-- The frame in hand (R125); its arrival port is the port of its stage. `leftRunning` marks a frame that was READING
when the unit left RUNNING (R141; log 25). -/
structure InHand where
  frame : Frame
  underRunning : Bool
  failed : Nat
  addr : SlotAddr
  leftRunning : Bool
deriving DecidableEq, Repr

/-- States of a lookup stage (Table 7-1). -/
inductive Stage where
  | idle
  | waitBank (h : InHand)
  | reading (h : InHand)
deriving DecidableEq, Repr

/-- The eighteen counters of a port (Table 7-3), in the order in which they are sent. -/
inductive Counter where
  | received
  | check
  | format
  | ingressFull
  | noRoute
  | notAccepted
  | holdExpired
  | stale
  | discarded
  | noDeliverToSelf
  | passed
  | delivered
  | mgmtConsumed
  | mgmtPassed
  | bypassed
  | tapIdle
  | egressFull
  | replyLost
deriving DecidableEq, Repr

/-- The counter block of a port (R142). -/
structure Counters where
  received : Nat
  check : Nat
  format : Nat
  ingressFull : Nat
  noRoute : Nat
  notAccepted : Nat
  holdExpired : Nat
  stale : Nat
  discarded : Nat
  noDeliverToSelf : Nat
  passed : Nat
  delivered : Nat
  mgmtConsumed : Nat
  mgmtPassed : Nat
  bypassed : Nat
  tapIdle : Nat
  egressFull : Nat
  replyLost : Nat
deriving DecidableEq, Repr

/-- A frame waiting for or in transmission; `awaited` marks a reply that RESTART awaits (R117, R118). -/
structure Outgoing where
  frame : Frame
  awaited : Bool
deriving DecidableEq, Repr

/-- A stored reply (R145). -/
structure StoredReply where
  tag : Byte
  kind : Byte
  status : Byte
  results : List Byte
deriving DecidableEq, Repr

/-- Where the configuration in force was taken from (R164). -/
structure ConfigSource where
  issue : Nat
  addr : SlotAddr
deriving DecidableEq, Repr

/-- The configuration in force (R164); an absent source is the defaults flag. -/
structure InForce where
  values : ConfigRecord
  source : Option ConfigSource
deriving DecidableEq, Repr

/-- Operating states (Table 10-1) and the condition without power (Table 10-2). -/
inductive OpState where
  | noPower
  | held
  | mounting
  | running
  | bypass
deriving DecidableEq, Repr

/-! ## The state -/

/-- Everything the spec gives the unit, and the queue of commands that wait for it. -/
structure State where
  resetAsserted : Bool
  guardRelease : Bool
  opState : OpState
  store : Store
  program : Option Program
  banks : PerBank BankUnit
  cfgBank : CfgBank
  index : Table (Option SlotAddr)
  staging : Staging
  queue : List QueuedRequest
  op : CurrentOp
  suspended : Option EraseRec
  issue : Option Nat
  faults : List FaultRecord
  overflow : Nat
  segs : Table SegVol
  ingress : PerPort (List Frame)
  stages : PerPort Stage
  counters : PerPort Counters
  traffic : PerLine (List Frame)
  replies : PerLine (List Outgoing)
  lineTx : PerLine (Option Outgoing)
  delivery : List Outgoing
  tapTx : Option Outgoing
  memory : PerPort (Option StoredReply)
  config : InForce
  pending : List Instr
deriving DecidableEq, Repr

/-- Why a step would stop with a fault. The spec gives every command of the table an effect, or says that it does not
arise (log 5), so no meaning answers with one. -/
inductive Fault where
  /-- Raised by nobody: no command of the unit stops it. Safe. -/
  | notRaised
deriving DecidableEq, Repr

/-- Why a step would be refused. -/
inductive Refusal where
  /-- Raised by an arm of exec for a command that has no meaning yet, by its mnemonic. Safe: nothing is claimed of it. -/
  | notModelled (mnemonic : String)
deriving DecidableEq, Repr

/-! ## Reset values -/

/-- A Bank Access Unit at reset (R90). -/
def BankUnit.reset : BankUnit :=
  { state := .free, inFlight := none, queue := [], claim := none, marker := 0, suspended := none }

/-- The configuration bank at reset (R102). -/
def CfgBank.reset : CfgBank :=
  { state := .free, inFlight := none }

/-- The Staging Buffer at reset (R34). -/
def Staging.reset : Staging :=
  { entries := [], owner := none, timer := false, tag := none }

/-- The default configuration record (Table 9-1). -/
def ConfigRecord.default : ConfigRecord :=
  { station := 0, holdLimit := 80, noRoute := .discard, guardLow := 1, guardHigh := 0, startMode := .run }

/-- The configuration in force at reset: the defaults with the defaults flag (R164). -/
def InForce.reset : InForce :=
  { values := ConfigRecord.default, source := none }

/-- A segment whose volatile values have no value (R15, R64). -/
def SegVol.noValue : SegVol :=
  { state := none, fill := none, inUse := none, erases := none }

/-- Every counter 0 (R142). -/
def Counters.zero : Counters :=
  { received := 0, check := 0, format := 0, ingressFull := 0, noRoute := 0, notAccepted := 0, holdExpired := 0,
    stale := 0, discarded := 0, noDeliverToSelf := 0, passed := 0, delivered := 0, mgmtConsumed := 0,
    mgmtPassed := 0, bypassed := 0, tapIdle := 0, egressFull := 0, replyLost := 0 }

/-- The store as delivered: every slot BLANK, every header stamped with erase count 0 (R10; log 2). -/
def Store.delivered : Store :=
  { slots := [], cfgSlots := [], headers := [] }

/-- The unit right after the assertion of RESET (R179): HELD, every piece of volatile state at its reset value, the
store as delivered, GUARD RELEASE not asserted, no command waiting (log 1, 2, 3). -/
def State.reset : State :=
  { resetAsserted := true
    guardRelease := false
    opState := .held
    store := Store.delivered
    program := none
    banks := { b0 := BankUnit.reset, b1 := BankUnit.reset, b2 := BankUnit.reset, b3 := BankUnit.reset }
    cfgBank := CfgBank.reset
    index := []
    staging := Staging.reset
    queue := []
    op := .idle
    suspended := none
    issue := none
    faults := []
    overflow := 0
    segs := []
    ingress := { east := [], west := [], tap := [] }
    stages := { east := .idle, west := .idle, tap := .idle }
    counters := { east := Counters.zero, west := Counters.zero, tap := Counters.zero }
    traffic := { east := [], west := [] }
    replies := { east := [], west := [] }
    lineTx := { east := none, west := none }
    delivery := []
    tapTx := none
    memory := { east := none, west := none, tap := none }
    config := InForce.reset
    pending := [] }

end Sys2Proof.Machine
end

