-- ==== Sys2Proof/Machine/Bytes.lean ====
section
/-! DEFINITION. Byte order, the check word, and the frames the unit builds (chapter 11). -/

namespace Sys2Proof.Machine

/-- A one-byte field. -/
def byte1 (n : Nat) : List Byte :=
  [BitVec.ofNat 8 n]

/-- A two-byte field, most significant byte first (00 6.03). -/
def byte2 (n : Nat) : List Byte :=
  [BitVec.ofNat 8 (n / 256), BitVec.ofNat 8 n]

/-- A four-byte field, most significant byte first (00 6.03). -/
def byte4 (n : Nat) : List Byte :=
  byte2 (n / 65536) ++ byte2 n

/-- The value of a two-byte field. -/
def value2 (hi lo : Byte) : Nat :=
  hi.toNat * 256 + lo.toNat

/-- One bit of the check computation (R196): the incoming bit against the top bit of the register. -/
def checkBit (r : Word16) (b : Bool) : Word16 :=
  if xor b r.msb then (r <<< 1) ^^^ 0x1021#16 else r <<< 1

/-- One byte of the check computation, most significant bit first (R196). -/
def checkByte (r : Word16) (b : Byte) : Word16 :=
  [7, 6, 5, 4, 3, 2, 1, 0].foldl (fun acc i => checkBit acc (b.getLsbD i)) r

/-- The check word over a list of bytes (R196). -/
def checkWord (bytes : List Byte) : Word16 :=
  bytes.foldl checkByte 0xFFFF#16

/-- Bytes followed by their check word, most significant byte first (R196). -/
def withCheck (bytes : List Byte) : Frame :=
  bytes ++ byte2 (checkWord bytes).toNat

/-- A frame of a channel with a payload (Table 11-1). -/
def buildFrame (channel : Nat) (payload : List Byte) : Frame :=
  withCheck (byte2 channel ++ byte1 payload.length ++ payload)

/-- A reply frame (R155, R198): channel 0, the station, the reply flag, tag, kind, status and results. -/
def replyFrame (station : Nat) (tag kind status : Byte) (results : List Byte) : Frame :=
  buildFrame 0 (byte2 station ++ [0x80#8, tag, kind, status] ++ results)

/-- A copy of a frame whose channel is replaced, with a check word computed afresh (R134). -/
def rewriteChannel (channel : Nat) (f : Frame) : Frame :=
  withCheck (byte2 channel ++ (f.drop 2).take (f.length - 4))

end Sys2Proof.Machine
end

