-- ==== Sys2Proof/Machine/Ops.lean ====
section
/-! DEFINITION. The named operations over the tables, the store, the segments, the counters, the FIFOs, the Fault List
and the reply paths, through which every command reads and changes the state. -/

namespace Sys2Proof.Machine

/-! ## Tables: sparse data by key -/

/-- What a table holds at a key; an unlisted key holds `d`. -/
def tableGet {α : Type} (d : α) : Table α → Nat → α
  | [], _ => d
  | (k, v) :: t, i => if i = k then v else tableGet d t i

/-- A table with the value at one key replaced; writing `d` removes the entry. -/
def tablePut {α : Type} [DecidableEq α] (d : α) (i : Nat) (v : α) : Table α → Table α
  | [] => if v = d then [] else [(i, v)]
  | (k, w) :: t =>
    if i < k then (if v = d then (k, w) :: t else (i, v) :: (k, w) :: t)
    else if i = k then (if v = d then t else (i, v) :: t)
    else (k, w) :: tablePut d i v t

/-- Keys rise strictly from `lo` on and no value is `d`. -/
def tableRisesFrom {α : Type} [DecidableEq α] (d : α) : Nat → Table α → Bool
  | _, [] => true
  | lo, (k, v) :: t => decide (lo ≤ k) && decide (v ≠ d) && tableRisesFrom d (k + 1) t

/-- The canonical form of a table whose unlisted keys hold `d`. -/
def tableWf {α : Type} [DecidableEq α] (d : α) (t : Table α) : Bool :=
  tableRisesFrom d 0 t

/-- A run of `n` keys from `lo`, each with the value `v`. -/
def tableRun {α : Type} (v : α) : Nat → Nat → Table α
  | _, 0 => []
  | lo, n + 1 => (lo, v) :: tableRun v (lo + 1) n

/-- A table with the `n` keys from `lo` on all set to `v`. -/
def tableFill {α : Type} [DecidableEq α] (d : α) (lo n : Nat) (v : α) (t : Table α) : Table α :=
  t.filter (fun kv => decide (kv.1 < lo)) ++ (if v = d then [] else tableRun v lo n)
    ++ t.filter (fun kv => decide (lo + n ≤ kv.1))

/-! ## Things there is one of per port, line or bank -/

/-- The value of a port. -/
def PerPort.get {α : Type} (t : PerPort α) : Port → α
  | .east => t.east
  | .west => t.west
  | .tap => t.tap

/-- The table with the value of one port replaced. -/
def PerPort.set {α : Type} (t : PerPort α) (p : Port) (v : α) : PerPort α :=
  match p with
  | .east => { t with east := v }
  | .west => { t with west := v }
  | .tap => { t with tap := v }

/-- The value of a line. -/
def PerLine.get {α : Type} (t : PerLine α) : Line → α
  | .east => t.east
  | .west => t.west

/-- The table with the value of one line replaced. -/
def PerLine.set {α : Type} (t : PerLine α) (l : Line) (v : α) : PerLine α :=
  match l with
  | .east => { t with east := v }
  | .west => { t with west := v }

/-- The value of a bank. -/
def PerBank.get {α : Type} (t : PerBank α) : Bank → α
  | .b0 => t.b0
  | .b1 => t.b1
  | .b2 => t.b2
  | .b3 => t.b3

/-- The table with the value of one bank replaced. -/
def PerBank.set {α : Type} (t : PerBank α) (b : Bank) (v : α) : PerBank α :=
  match b with
  | .b0 => { t with b0 := v }
  | .b1 => { t with b1 := v }
  | .b2 => { t with b2 := v }
  | .b3 => { t with b3 := v }

/-- The bank of a route segment: its id divided by 8 (R1). -/
def bankOf (seg : Nat) : Bank :=
  match seg / 8 with
  | 0 => .b0
  | 1 => .b1
  | 2 => .b2
  | _ => .b3

/-- The port of a line. -/
def linePort : Line → Port
  | .east => .east
  | .west => .west

/-- The line opposite to that of a line arrival; the tap has none. -/
def oppositeLine : Port → Option Line
  | .east => some .west
  | .west => some .east
  | .tap => none

/-- The bank unit of a bank. -/
def State.bank (s : State) (b : Bank) : BankUnit :=
  s.banks.get b

/-- The state with one bank unit replaced. -/
def State.setBank (s : State) (b : Bank) (u : BankUnit) : State :=
  { s with banks := s.banks.set b u }

/-- The state with the lookup stage of a port replaced. -/
def State.setStage (s : State) (p : Port) (g : Stage) : State :=
  { s with stages := s.stages.set p g }

/-! ## The store -/

/-- Key of a route slot. -/
def slotKey (a : SlotAddr) : Nat :=
  Config.slotsPerSegment * a.seg + a.slot

/-- Key of a configuration slot. -/
def cfgKey (a : SlotAddr) : Nat :=
  Config.slotsPerCfgSegment * (a.seg - Config.segCA) + a.slot

/-- What a route slot holds. -/
def Store.slot (m : Store) (a : SlotAddr) : Slot :=
  tableGet .blank m.slots (slotKey a)

/-- The store with one route slot replaced. -/
def Store.putSlot (m : Store) (a : SlotAddr) (v : Slot) : Store :=
  { m with slots := tablePut .blank (slotKey a) v m.slots }

/-- What a configuration slot holds. -/
def Store.cfgSlot (m : Store) (a : SlotAddr) : CfgSlot :=
  tableGet .blank m.cfgSlots (cfgKey a)

/-- The store with one configuration slot replaced. -/
def Store.putCfgSlot (m : Store) (a : SlotAddr) (v : CfgSlot) : Store :=
  { m with cfgSlots := tablePut .blank (cfgKey a) v m.cfgSlots }

/-- What a header holds; as delivered, stamped with 0 (R10). -/
def Store.header (m : Store) (seg : Nat) : Header :=
  tableGet (.stamped 0) m.headers seg

/-- The store with one header replaced. -/
def Store.putHeader (m : Store) (seg : Nat) (h : Header) : Store :=
  { m with headers := tablePut (.stamped 0) seg h m.headers }

/-- The store with every slot of a route segment set to one value. -/
def Store.fillRouteSegment (m : Store) (seg : Nat) (v : Slot) : Store :=
  { m with slots := tableFill .blank (Config.slotsPerSegment * seg) Config.slotsPerSegment v m.slots }

/-- The store with every slot of a configuration segment set to one value. -/
def Store.fillCfgSegment (m : Store) (seg : Nat) (v : CfgSlot) : Store :=
  { m with cfgSlots := tableFill .blank (Config.slotsPerCfgSegment * (seg - Config.segCA)) Config.slotsPerCfgSegment v m.cfgSlots }

/-- A completed erase: every slot BLANK, the header unprogrammed (R10, R21). -/
def Store.erased (m : Store) (seg : Nat) : Store :=
  if seg < Config.routeSegments then (m.fillRouteSegment seg .blank).putHeader seg .unstamped
  else (m.fillCfgSegment seg .blank).putHeader seg .unstamped

/-- An erase that was cut short or stopped: every slot indeterminate, the stamp invalid (R22). -/
def Store.torn (m : Store) (seg : Nat) : Store :=
  if seg < Config.routeSegments then (m.fillRouteSegment seg .indeterminate).putHeader seg .unstamped
  else (m.fillCfgSegment seg .indeterminate).putHeader seg .unstamped

/-- The canonical form of the whole store. -/
def Store.wf (m : Store) : Bool :=
  tableWf .blank m.slots && tableWf .blank m.cfgSlots && tableWf (.stamped 0) m.headers

/-- A slot after a program that passed (Table 1-2, R8). A program moves cells forward only (R6): a slot that is not in
a state the program is issued from is left as it is (log 17). -/
def SlotWrite.passed (w : SlotWrite) (old : Slot) : Slot :=
  match w with
  | .void => .void
  | .entry issue e =>
    match old with
    | .blank => .written { state := .pending, issue := issue, content := .entry e }
    | other => other
  | .seal issue count =>
    match old with
    | .blank => .written { state := .live, issue := issue, content := .seal count }
    | other => other
  | .promote =>
    match old with
    | .written r => .written { r with state := if r.state = .pending then .live else r.state }
    | other => other
  | .retire =>
    match old with
    | .written r => .written { r with state := .retired }
    | other => other

/-- The store at the end of a program that passed or failed (R8, R9, R10), or was cut short, which is as a failure (R22). -/
def Store.programmed (m : Store) (j : Job) (pass : Bool) : Store :=
  match j with
  | .slot a w => m.putSlot a (if pass then w.passed (m.slot a) else .indeterminate)
  | .stamp seg count => m.putHeader seg (if pass then .stamped count else .unstamped)
  | .cfgRecord a issue v => m.putCfgSlot a (if pass then .live issue v else .indeterminate)
  | .cfgVoid a => m.putCfgSlot a (if pass then .void else .indeterminate)

/-- A slot is counted in use: a ROUTE or WITHDRAW whose latest completed program left it PENDING or LIVE with pass (R64). -/
def Slot.inUse : Slot → Bool
  | .written ⟨.pending, _, .entry _⟩ => true
  | .written ⟨.live, _, .entry _⟩ => true
  | _ => false

/-! ## Segments -/

/-- The volatile values of a segment. -/
def State.seg (s : State) (g : Nat) : SegVol :=
  tableGet SegVol.noValue s.segs g

/-- The state with the volatile values of a segment replaced. -/
def State.setSeg (s : State) (g : Nat) (v : SegVol) : State :=
  { s with segs := tablePut SegVol.noValue g v s.segs }

/-- The fill pointer of a segment, 0 while it has no value. -/
def State.fillOf (s : State) (g : Nat) : Nat :=
  (s.seg g).fill.getD 0

/-- The in-use count of a segment, 0 while it has no value. -/
def State.inUseOf (s : State) (g : Nat) : Nat :=
  (s.seg g).inUse.getD 0

/-- The volatile erase count of a segment, 0 while it has no value. -/
def State.erasesOf (s : State) (g : Nat) : Nat :=
  (s.seg g).erases.getD 0

/-- A segment is in a volatile state. -/
def State.segIs (s : State) (g : Nat) (x : SegState) : Bool :=
  (s.seg g).state = some x

/-- The state with a segment's volatile state replaced. -/
def State.setSegState (s : State) (g : Nat) (x : SegState) : State :=
  s.setSeg g { s.seg g with state := some x }

/-- The state with a segment's volatile state and fill pointer replaced. -/
def State.setSegFill (s : State) (g : Nat) (x : SegState) (fill : Nat) : State :=
  s.setSeg g { s.seg g with state := some x, fill := some fill }

/-- The fill pointer of a segment increases by one, at the issue of a program (R17). -/
def State.bumpFill (s : State) (g : Nat) : State :=
  s.setSeg g { s.seg g with fill := some (s.fillOf g + 1) }

/-- The volatile erase count of a segment increases by one, at its erase completion (R11). -/
def State.bumpErases (s : State) (g : Nat) : State :=
  s.setSeg g { s.seg g with erases := some (s.erasesOf g + 1) }

/-- The in-use count of a segment after a completed program (R64). -/
def State.setInUse (s : State) (g : Nat) (n : Nat) : State :=
  s.setSeg g { s.seg g with inUse := some n }

/-- A segment is WORN (R11). -/
def State.worn (s : State) (g : Nat) : Bool :=
  Config.wornCount ≤ s.erasesOf g

/-- The OPEN route segment, if there is one (R14). -/
def State.openSeg (s : State) : Option Nat :=
  (List.range Config.routeSegments).find? (fun g => s.segIs g .opened)

/-- The segment id of a configuration segment (R1). -/
def CfgSeg.id : CfgSeg → Nat
  | .ca => Config.segCA
  | .cb => Config.segCB

/-- The OPEN configuration segment, if there is one (R163). -/
def State.openCfgSeg (s : State) : Option CfgSeg :=
  [CfgSeg.ca, CfgSeg.cb].find? (fun g => s.segIs g.id .opened)

/-- Of two segments, the one with the lower erase count, the first on a tie. -/
def State.lessWorn (s : State) (a b : Nat) : Nat :=
  if s.erasesOf b < s.erasesOf a then b else a

/-- The segment that allocation chooses (R16): among the CLEAN route segments the lowest erase count, then the lowest id. -/
def State.allocatable (s : State) : Option Nat :=
  (List.range Config.routeSegments).foldl
    (fun best g =>
      if s.segIs g .clean then
        match best with
        | none => some g
        | some b => some (s.lessWorn b g)
      else best)
    none

/-- Allocation (R16): the chosen segment becomes OPEN with fill pointer 0 and the segment that was OPEN becomes FILLED. -/
def State.allocate (s : State) (g : Nat) : State :=
  match s.openSeg with
  | some o => (s.setSegState o .filled).setSegFill g .opened 0
  | none => s.setSegFill g .opened 0

/-! ## Counters and FIFOs -/

/-- One more, saturating (R142). -/
def saturate (n : Nat) : Nat :=
  if n < Config.counterMax then n + 1 else n

/-- A counter block with one counter incremented (R142). -/
def Counters.bump (c : Counters) : Counter → Counters
  | .received => { c with received := saturate c.received }
  | .check => { c with check := saturate c.check }
  | .format => { c with format := saturate c.format }
  | .ingressFull => { c with ingressFull := saturate c.ingressFull }
  | .noRoute => { c with noRoute := saturate c.noRoute }
  | .notAccepted => { c with notAccepted := saturate c.notAccepted }
  | .holdExpired => { c with holdExpired := saturate c.holdExpired }
  | .stale => { c with stale := saturate c.stale }
  | .discarded => { c with discarded := saturate c.discarded }
  | .noDeliverToSelf => { c with noDeliverToSelf := saturate c.noDeliverToSelf }
  | .passed => { c with passed := saturate c.passed }
  | .delivered => { c with delivered := saturate c.delivered }
  | .mgmtConsumed => { c with mgmtConsumed := saturate c.mgmtConsumed }
  | .mgmtPassed => { c with mgmtPassed := saturate c.mgmtPassed }
  | .bypassed => { c with bypassed := saturate c.bypassed }
  | .tapIdle => { c with tapIdle := saturate c.tapIdle }
  | .egressFull => { c with egressFull := saturate c.egressFull }
  | .replyLost => { c with replyLost := saturate c.replyLost }

/-- The state with one counter of a port incremented. -/
def State.count (s : State) (p : Port) (c : Counter) : State :=
  { s with counters := s.counters.set p ((s.counters.get p).bump c) }

/-- An idle line transmitter starts the head of the reply FIFO, else the head of the traffic FIFO (R136). -/
def State.kickLine (s : State) (l : Line) : State :=
  match s.lineTx.get l with
  | some _ => s
  | none =>
    match s.replies.get l with
    | r :: rs => { s with lineTx := s.lineTx.set l (some r), replies := s.replies.set l rs }
    | [] =>
      match s.traffic.get l with
      | f :: fs => { s with lineTx := s.lineTx.set l (some ⟨f, false⟩), traffic := s.traffic.set l fs }
      | [] => s

/-- An idle tap transmitter starts the head of the delivery FIFO (R137). -/
def State.kickTap (s : State) : State :=
  match s.tapTx with
  | some _ => s
  | none =>
    match s.delivery with
    | d :: ds => { s with tapTx := some d, delivery := ds }
    | [] => s

/-- A copy placed in the traffic FIFO of a line, or discarded and counted EGRESS_FULL there (R135). -/
def State.placeTraffic (s : State) (l : Line) (f : Frame) : State :=
  if (s.traffic.get l).length < Config.trafficCapacity then
    ({ s with traffic := s.traffic.set l (s.traffic.get l ++ [f]) } : State).kickLine l
  else s.count (linePort l) .egressFull

/-- A frame carried across while HELD: placed in the traffic FIFO of a line, or dropped without a count (R140). -/
def State.carryTraffic (s : State) (l : Line) (f : Frame) : State :=
  if (s.traffic.get l).length < Config.trafficCapacity then
    ({ s with traffic := s.traffic.set l (s.traffic.get l ++ [f]) } : State).kickLine l
  else s

/-- A copy placed in the tap delivery FIFO, or discarded and counted TAP_FULL at the tap (R137). -/
def State.placeDelivery (s : State) (f : Frame) : State :=
  if s.delivery.length < Config.deliveryCapacity then
    ({ s with delivery := s.delivery ++ [⟨f, false⟩] } : State).kickTap
  else s.count .tap .egressFull

/-- The reply path of a port has room for a reply (R135, R137). -/
def State.replyRoom (s : State) : Port → Bool
  | .east => (s.replies.get .east).length < Config.replyCapacity
  | .west => (s.replies.get .west).length < Config.replyCapacity
  | .tap => s.delivery.length < Config.deliveryCapacity

/-- A reply appended to the reply FIFO of a line. -/
def State.appendReply (s : State) (l : Line) (o : Outgoing) : State :=
  ({ s with replies := s.replies.set l (s.replies.get l ++ [o]) } : State).kickLine l

/-- A reply placed on the reply path of a port, or lost and counted REPLY_LOST there (R135, R137, R155). -/
def State.placeReply (s : State) (p : Port) (o : Outgoing) : State :=
  if s.replyRoom p then
    match p with
    | .east => s.appendReply .east o
    | .west => s.appendReply .west o
    | .tap => ({ s with delivery := s.delivery ++ [o] } : State).kickTap
  else s.count p .replyLost

/-! ## The Fault List -/

/-- A fault record appended at the tail; a full list loses its oldest record to the overflow count (R119). -/
def State.addFault (s : State) (r : FaultRecord) : State :=
  if s.faults.length < Config.faultCapacity then { s with faults := s.faults ++ [r] }
  else
    { s with
      faults := s.faults.drop 1 ++ [r]
      overflow := if s.overflow < Config.overflowMax then s.overflow + 1 else s.overflow }

/-! ## Replies -/

/-- Status values (Table 11-4). -/
inductive Status where
  | done
  | inProgress
  | queueFull
  | notRunning
  | badRequest
  | badEntry
  | stageOwned
  | stageFull
  | stageEmpty
  | duplicateChannel
  | guarded
  | noSpace
  | issueExhausted
  | segmentInUse
  | segmentState
  | worn
  | bankBusy
  | writeFault
  | sealFault
  | settleFault
  | eraseFault
  | configFault
  | abandoned
  | cancelled
  | notFound
  | notCancellable
deriving DecidableEq, Repr

/-- The byte of a status (Table 11-4). -/
def Status.code : Status → Byte
  | .done => 0x00
  | .inProgress => 0x01
  | .queueFull => 0x02
  | .notRunning => 0x03
  | .badRequest => 0x04
  | .badEntry => 0x05
  | .stageOwned => 0x06
  | .stageFull => 0x07
  | .stageEmpty => 0x08
  | .duplicateChannel => 0x09
  | .guarded => 0x0A
  | .noSpace => 0x0B
  | .issueExhausted => 0x0C
  | .segmentInUse => 0x0D
  | .segmentState => 0x0E
  | .worn => 0x0F
  | .bankBusy => 0x10
  | .writeFault => 0x11
  | .sealFault => 0x12
  | .settleFault => 0x13
  | .eraseFault => 0x14
  | .configFault => 0x15
  | .abandoned => 0x16
  | .cancelled => 0x17
  | .notFound => 0x18
  | .notCancellable => 0x19

/-- The replies that leave the reply memory as it stands whatever the kind (R156). -/
def Status.transient : Status → Bool
  | .queueFull => true
  | .notRunning => true
  | .bankBusy => true
  | .inProgress => true
  | _ => false

/-- Request kinds (Table 11-3). -/
inductive ReqKind where
  | status
  | describe
  | readSlot
  | readIndex
  | readCounters
  | readFaults
  | readConfig
  | clearFaults
  | stage
  | unstage
  | abandon
  | setMode
  | commit
  | erase
  | reclaim
  | setConfig
  | restart
deriving DecidableEq, Repr

/-- The byte of a request kind (Table 11-3). -/
def ReqKind.code : ReqKind → Byte
  | .status => 0x01
  | .describe => 0x02
  | .readSlot => 0x03
  | .readIndex => 0x04
  | .readCounters => 0x05
  | .readFaults => 0x06
  | .readConfig => 0x07
  | .clearFaults => 0x10
  | .stage => 0x11
  | .unstage => 0x12
  | .abandon => 0x13
  | .setMode => 0x14
  | .commit => 0x20
  | .erase => 0x21
  | .reclaim => 0x22
  | .setConfig => 0x23
  | .restart => 0x24

/-- A reply built and placed on the reply path of its request's port with the station in force (R155); `awaited` marks
one that RESTART awaits (R117). -/
def State.emitReply (s : State) (o : Origin) (kind status : Byte) (results : List Byte) (awaited : Bool) : State :=
  s.placeReply o.port ⟨replyFrame s.config.values.station o.tag kind status results, awaited⟩

/-- The reply memory of a port replaced by a reply (R156). -/
def State.remember (s : State) (o : Origin) (kind status : Byte) (results : List Byte) : State :=
  { s with memory := s.memory.set o.port (some { tag := o.tag, kind := kind, status := status, results := results }) }

/-- The reply to a request that is not kept in reply memory: of a read kind, or of an unknown kind (R152, R156). -/
def State.replyRead (s : State) (o : Origin) (kind : Byte) (st : Status) (results : List Byte) : State :=
  s.emitReply o kind st.code results false

/-- The reply to a request of a state-changing kind: kept in reply memory unless its status is transient (R156). -/
def State.replyStored (s : State) (o : Origin) (kind : ReqKind) (st : Status) (results : List Byte) : State :=
  if st.transient then s.emitReply o kind.code st.code results false
  else (s.remember o kind.code st.code results).emitReply o kind.code st.code results false

/-- The reply of a state-changing kind that RESTART awaits (R117). -/
def State.replyAwaited (s : State) (o : Origin) (kind : ReqKind) (st : Status) : State :=
  (s.remember o kind.code st.code []).emitReply o kind.code st.code [] true

end Sys2Proof.Machine
end

