-- ==== Sys2Proof/Machine/Operands.lean ====
section
/-! DEFINITION. Reading operands: the fields of a frame, of a management payload and of every request's parameters (chapter 11). -/

namespace Sys2Proof.Machine

/-! ## The frame -/

/-- The two channel bytes as received (Table 11-1). -/
def frameChannelField : Frame → Nat
  | hi :: lo :: _ => value2 hi lo
  | _ => 0

/-- The length byte as received (Table 11-1). -/
def frameLengthField : Frame → Nat
  | _ :: _ :: l :: _ => l.toNat
  | _ => 0

/-- The payload bytes of a well-formed frame (Table 11-1). -/
def framePayload (f : Frame) : List Byte :=
  (f.drop 3).take (f.length - 5)

/-- The check word agrees (R196); a reception of fewer than 5 bytes fails without a computation. -/
def checkGood (f : Frame) : Bool :=
  decide (5 ≤ f.length) &&
    decide (f.drop (f.length - 2) = byte2 (checkWord (f.take (f.length - 2))).toNat)

/-- The frame breaks no format condition (R197). -/
def formatGood (f : Frame) : Bool :=
  decide (frameChannelField f ≤ Config.maxChannel) &&
    decide (frameLengthField f ≤ Config.maxPayload) &&
    decide (f.length = frameLengthField f + 5) &&
    (decide (frameChannelField f ≠ 0) || decide (Config.managementBytes ≤ frameLengthField f))

/-! ## The management payload (Table 11-2) -/

/-- A management request or reply as read from a payload of at least six bytes. -/
structure ManagementFields where
  station : Nat
  isReply : Bool
  tag : Byte
  kind : Byte
  params : List Byte
deriving DecidableEq, Repr

/-- The management fields of a payload (R144, R198); the status byte and the other control bits are not examined. -/
def managementFields : List Byte → ManagementFields
  | hi :: lo :: control :: tag :: kind :: _ :: params =>
    { station := value2 hi lo, isReply := control.getLsbD 7, tag := tag, kind := kind, params := params }
  | _ => { station := 0, isReply := true, tag := 0, kind := 0, params := [] }

/-- A request as dispatch takes it: where it came from, its kind byte and its parameters. -/
structure Request where
  origin : Origin
  kind : Byte
  params : List Byte
deriving DecidableEq, Repr

/-- The request kind of a kind byte (Table 11-3). -/
def kindOf (b : Byte) : Option ReqKind :=
  match b.toNat with
  | 0x01 => some .status
  | 0x02 => some .describe
  | 0x03 => some .readSlot
  | 0x04 => some .readIndex
  | 0x05 => some .readCounters
  | 0x06 => some .readFaults
  | 0x07 => some .readConfig
  | 0x10 => some .clearFaults
  | 0x11 => some .stage
  | 0x12 => some .unstage
  | 0x13 => some .abandon
  | 0x14 => some .setMode
  | 0x20 => some .commit
  | 0x21 => some .erase
  | 0x22 => some .reclaim
  | 0x23 => some .setConfig
  | 0x24 => some .restart
  | _ => none

/-- The READ COUNTERS form with the clear flag set: exactly two bytes, the second 0x01 (R151). -/
def clearForm : List Byte → Bool
  | [_, flag] => flag = 1
  | _ => false

/-- The state-changing kinds (R151). -/
def stateChanging (k : ReqKind) (params : List Byte) : Bool :=
  match k with
  | .status | .describe | .readSlot | .readIndex | .readFaults | .readConfig => false
  | .readCounters => clearForm params
  | .clearFaults | .stage | .unstage | .abandon | .setMode => true
  | .commit | .erase | .reclaim | .setConfig | .restart => true

/-- The parameters have the length of their kind (R198, Table 11-5). -/
def lengthGood (k : ReqKind) (params : List Byte) : Bool :=
  match k with
  | .status | .describe | .readFaults | .readConfig | .clearFaults | .unstage | .commit | .restart =>
    params.length = 0
  | .readSlot | .readCounters => params.length = 2
  | .readIndex => params.length = 3
  | .abandon | .setMode | .erase | .reclaim => params.length = 1
  | .setConfig => params.length = 9
  | .stage =>
    match params with
    | [] => false
    | n :: rest => rest.length = 8 * n.toNat

/-! ## Codes (Table 11-7) -/

/-- A port code. -/
def portOf (b : Byte) : Option Port :=
  match b.toNat with
  | 1 => some .east
  | 2 => some .west
  | 3 => some .tap
  | _ => none

/-- An action code. -/
def actionOf (b : Byte) : Option Action :=
  match b.toNat with
  | 1 => some .pass
  | 2 => some .deliver
  | 3 => some .passAndDeliver
  | 4 => some .discard
  | _ => none

/-- An accept set: a sum of 0x01, 0x02 and 0x04, not empty, no other bit set (R199). -/
def acceptOf (b : Byte) : Option PortSet :=
  if b.toNat = 0 ∨ 7 < b.toNat then none
  else some { east := b.getLsbD 0, west := b.getLsbD 1, tap := b.getLsbD 2 }

/-- A mode code: RUN or BYPASS. -/
def modeOf (n : Nat) : Option Mode :=
  match n with
  | 1 => some .run
  | 2 => some .bypass
  | _ => none

/-- A no-route action code. -/
def noRouteOf (n : Nat) : Option NoRouteAction :=
  match n with
  | 1 => some .discard
  | 2 => some .deliver
  | _ => none

/-! ## Entry images (Table 11-8, R35, R199) -/

/-- A ROUTE with this accept set and action must carry a tap side (R3, R35). -/
def needsTapSide (accept : PortSet) (action : Action) : Bool :=
  match action with
  | .pass | .passAndDeliver => accept.tap
  | .deliver | .discard => false

/-- The tap side byte of a ROUTE: present exactly when it is needed (R35, R199). -/
def tapSideOf (needed : Bool) (b : Byte) : Option (Option Line) :=
  match needed, b.toNat with
  | true, 1 => some (some .east)
  | true, 2 => some (some .west)
  | false, 0 => some none
  | _, _ => none

/-- The out channel bytes: 0 is absent, else 1..4095 (R199). -/
def outChannelOf (n : Nat) : Option (Option Nat) :=
  if n = 0 then some none
  else if n ≤ Config.maxChannel then some (some n)
  else none

/-- The ROUTE fields of an image, when they are well formed. -/
def routeFieldsOf (accept action outHi outLo side : Byte) : Option RouteFields := do
  let acc ← acceptOf accept
  let act ← actionOf action
  let out ← outChannelOf (value2 outHi outLo)
  let tap ← tapSideOf (needsTapSide acc act) side
  return { accept := acc, action := act, outChannel := out, tapSide := tap }

/-- An 8-byte image as an entry, when it is well formed (R35, R199). -/
def entryOf : List Byte → Option Entry
  | [kind, chHi, chLo, accept, action, outHi, outLo, side] =>
    let channel := value2 chHi chLo
    if channel = 0 ∨ Config.maxChannel < channel then none
    else
      match kind.toNat with
      | 1 => (routeFieldsOf accept action outHi outLo side).map (fun f => { channel := channel, kind := .route f })
      | 2 =>
        if accept = 0 ∧ action = 0 ∧ outHi = 0 ∧ outLo = 0 ∧ side = 0 then some { channel := channel, kind := .withdraw }
        else none
      | _ => none
  | _ => none

/-- The first `n` images of the parameters of a STAGE behind the count byte, 8 bytes each. -/
def imagesOf : Nat → List Byte → List (List Byte)
  | 0, _ => []
  | n + 1, bytes => bytes.take 8 :: imagesOf n (bytes.drop 8)

/-- The entries of the images in order, or the position (from 1) of the first image that is not well formed (R36). -/
def entriesOf : Nat → List (List Byte) → Except Nat (List Entry)
  | _, [] => .ok []
  | pos, img :: rest =>
    match entryOf img with
    | none => .error pos
    | some e =>
      match entriesOf (pos + 1) rest with
      | .ok es => .ok (e :: es)
      | .error p => .error p

/-- The position (from 1) of the first entry whose channel stands in an earlier one or in the buffer (R36). -/
def firstDuplicate : Nat → List Nat → List Entry → Option Nat
  | _, _, [] => none
  | pos, seen, e :: es =>
    if e.channel ∈ seen then some pos else firstDuplicate (pos + 1) (e.channel :: seen) es

/-! ## Configuration images (Table 11-10, R167) -/

/-- A configuration image of 9 bytes. -/
def configImageOf : List Byte → Option ConfigImage
  | [stHi, stLo, hold, noRoute, loHi, loLo, hiHi, hiLo, start] =>
    some { station := value2 stHi stLo, holdLimit := hold.toNat, noRoute := noRoute.toNat,
           guardLow := value2 loHi loLo, guardHigh := value2 hiHi hiLo, startMode := start.toNat }
  | _ => none

/-- The range check (R167): the record, or the number of the first failing field in the order of Table 9-1. -/
def configOfImage (i : ConfigImage) : Except Nat ConfigRecord :=
  if Config.broadcastStation ≤ i.station then .error 1
  else if i.holdLimit = 0 ∨ 255 < i.holdLimit then .error 2
  else
    match noRouteOf i.noRoute with
    | none => .error 3
    | some nr =>
      if i.guardLow = 0 ∨ Config.maxChannel < i.guardLow ∨ Config.maxChannel < i.guardHigh then .error 4
      else
        match modeOf i.startMode with
        | none => .error 5
        | some m =>
          .ok { station := i.station, holdLimit := i.holdLimit, noRoute := nr, guardLow := i.guardLow,
                guardHigh := i.guardHigh, startMode := m }

end Sys2Proof.Machine
end

