-- ==== Sys2Proof/Machine/Flags.lean ====
section
/-! DEFINITION. Conditions and results the rules compute from the state: read results and their check, guarded and
narrowing checks, suspension reasons, the resume condition, requests in progress. -/

namespace Sys2Proof.Machine

/-! ## Reads (R20, R30) -/

/-- An issue number a record may carry (R45). -/
def issueInRange (n : Nat) : Bool :=
  decide (1 ≤ n) && decide (n ≤ Config.maxIssue)

/-- A routable channel (R23). -/
def channelInRange (n : Nat) : Bool :=
  decide (1 ≤ n) && decide (n ≤ Config.maxChannel)

/-- The ROUTE fields are ones R3 allows. -/
def RouteFields.allowed (f : RouteFields) : Bool :=
  (f.accept.east || f.accept.west || f.accept.tap) &&
    (match f.outChannel with
     | none => true
     | some n => channelInRange n) &&
    (f.tapSide.isSome == needsTapSide f.accept f.action)

/-- The record is one R3 allows: a SEAL is LIVE with a count of 1..16, an entry has a routable channel and allowed fields. -/
def SlotRecord.allowed (r : SlotRecord) : Bool :=
  issueInRange r.issue &&
    match r.content with
    | .seal n => decide (r.state = .live) && decide (1 ≤ n) && decide (n ≤ Config.stagingCapacity)
    | .entry e =>
      channelInRange e.channel &&
        match e.kind with
        | .withdraw => true
        | .route f => f.allowed

/-- What a read of a slot's cells reports (R4, R20); lost margin reports MARGIN_FAIL (Table 2-1; log 9). -/
def readCells (v : Slot) (marginLost : Bool) : ReadResult :=
  if marginLost then .marginFail
  else
    match v with
    | .blank => .blank
    | .void => .void
    | .indeterminate => .marginFail
    | .written r => if r.allowed then .record r else .marginFail

/-- What a read of a route slot reports: UNREADABLE in the segment under a suspended erase (R20, R94). -/
def State.readSlotResult (s : State) (a : SlotAddr) (marginLost : Bool) : ReadResult :=
  if (s.bank (bankOf a.seg)).suspended = some a.seg then .unreadable
  else readCells (s.store.slot a) marginLost

/-- The check of a route read through the index (R30): the route of the channel, when all four conditions hold. -/
def routeCheck (r : ReadResult) (channel : Nat) : Option RouteFields :=
  match r with
  | .record ⟨st, _, .entry ⟨ch, .route f⟩⟩ => if ch = channel ∧ st ≠ .retired then some f else none
  | _ => none

/-- The values are ones Table 9-1 allows. -/
def ConfigRecord.allowed (c : ConfigRecord) : Bool :=
  decide (c.station < Config.broadcastStation) && decide (1 ≤ c.holdLimit) && decide (c.holdLimit ≤ 255) &&
    decide (1 ≤ c.guardLow) && decide (c.guardLow ≤ Config.maxChannel) && decide (c.guardHigh ≤ Config.maxChannel)

/-- What the mount records for a configuration slot (R186). -/
def readCfgCells (v : CfgSlot) (marginLost : Bool) : CfgSlot :=
  if marginLost then .indeterminate
  else
    match v with
    | .live issue c => if issueInRange issue && c.allowed then .live issue c else .indeterminate
    | other => other

/-- What the mount records for a route slot: `indeterminate` stands for MARGIN_FAIL (R186). -/
def recordOfRead : ReadResult → Slot
  | .blank => .blank
  | .void => .void
  | .record r => .written r
  | .marginFail => .indeterminate
  | .unreadable => .indeterminate

/-- What a header read reports: its erase count, or nothing when the stamp is invalid (R10). -/
def readHeader (h : Header) (marginLost : Bool) : Option Nat :=
  match h with
  | .stamped n => if marginLost then none else some n
  | .unstamped => none

/-! ## Channels (R23, R48, R168) -/

/-- The position of a channel in the Channel Index (R23). -/
def State.position (s : State) (channel : Nat) : Option SlotAddr :=
  tableGet none s.index channel

/-- The state with one position of the Channel Index replaced. -/
def State.setPosition (s : State) (channel : Nat) (v : Option SlotAddr) : State :=
  { s with index := tablePut none channel v s.index }

/-- A channel lies in the guarded range in force (R162). -/
def ConfigRecord.guards (c : ConfigRecord) (channel : Nat) : Bool :=
  decide (c.guardLow ≤ channel) && decide (channel ≤ c.guardHigh)

/-- The channel of the first entry of a batch that lies in the guarded range (R48). -/
def firstGuarded (c : ConfigRecord) : List Entry → Option Nat
  | [] => none
  | e :: es => if c.guards e.channel then some e.channel else firstGuarded c es

/-- The new range is narrower: a channel lies in the range in force and not in the new one (R168). -/
def narrows (old new : ConfigRecord) : Bool :=
  decide (old.guardLow ≤ old.guardHigh) &&
    !(decide (new.guardLow ≤ old.guardLow) && decide (old.guardHigh ≤ new.guardHigh))

/-! ## The erase in progress (R72, R75) -/

/-- A COMMIT or SET CONFIG (R72). -/
def QueuedKind.urgent : QueuedKind → Bool
  | .commit _ => true
  | .setConfig _ => true
  | .erase _ => false
  | .reclaim _ => false
  | .restart => false

/-- The head of the Request Queue is a COMMIT or SET CONFIG (R72). -/
def State.urgentHead (s : State) : Bool :=
  match s.queue with
  | q :: _ => q.kind.urgent
  | [] => false

/-- A suspension reason exists for the erase of a segment (R72). -/
def State.suspensionReason (s : State) (seg : Nat) : Bool :=
  !(s.bank (bankOf seg)).queue.isEmpty || s.urgentHead

/-- The resume condition for a current erase at SUSPENDED (R75): no read queued or in flight in its bank, no COMMIT or
SET CONFIG at the head, no ABANDON held. (A current erase means that no COMMIT or SET CONFIG runs.) -/
def State.resumeAllowed (s : State) (e : EraseRec) : Bool :=
  (s.bank (bankOf e.seg)).queue.isEmpty && (s.bank (bankOf e.seg)).inFlight.isNone && !s.urgentHead && e.held.isEmpty

/-- The erase has begun in the store and not ended: a reset now leaves its segment torn (R22, R79). -/
def EraseStep.touchesStore : EraseStep → Bool
  | .running | .waiting | .suspending | .suspended | .stopping _ => true
  | .claimed | .stamping => false

/-! ## Requests in progress (R150) -/

/-- The request of the current operation (R107). -/
def CurrentOp.origin? : CurrentOp → Option Origin
  | .idle => none
  | .mount _ => none
  | .commit b => some b.origin
  | .erase e => some e.origin
  | .reclaim r => some r.origin
  | .configWrite w => some w.origin
  | .restart r => some r.origin

/-- The READ SLOT whose read is in flight in a bank (R150). -/
def BankUnit.readSlotOrigin? (u : BankUnit) : Option Origin :=
  match u.inFlight with
  | some ⟨_, .readSlot o, _⟩ => some o
  | _ => none

/-- A request with this port and tag is in progress (R150). -/
def State.inProgress (s : State) (o : Origin) : Bool :=
  s.queue.any (fun q => q.origin = o) || s.op.origin? = some o || s.suspended.map EraseRec.origin = some o ||
    s.banks.b0.readSlotOrigin? = some o || s.banks.b1.readSlotOrigin? = some o ||
    s.banks.b2.readSlotOrigin? = some o || s.banks.b3.readSlotOrigin? = some o

/-- The Management Responder receives hand-offs (R145): in MOUNTING, RUNNING and BYPASS. -/
def OpState.linkUp : OpState → Bool
  | .noPower => false
  | .held => false
  | .mounting => true
  | .running => true
  | .bypass => true

end Sys2Proof.Machine
end

