-- ==== Sys2Proof/Machine/Layouts.lean ====
section
/-! DEFINITION. The result bytes of every reply and the codes in them (chapter 11, Tables 11-6 to 11-13). -/

namespace Sys2Proof.Machine

/-! ## Codes and absent values (R199, Table 11-7) -/

/-- A segment id, a slot, or a one-byte count or code without a 0 meaning: absent is 0xFF (R199; log 14). -/
def byteOrFF (n : Option Nat) : List Byte :=
  byte1 (n.getD 255)

/-- A one-byte field whose absent value is 0 (R199). -/
def byteOrZero (n : Option Nat) : List Byte :=
  byte1 (n.getD 0)

/-- A two-byte field whose absent value is 0 (R199). -/
def pairOrZero (n : Option Nat) : List Byte :=
  byte2 (n.getD 0)

/-- A four-byte field whose absent value is 0 (R199). -/
def quadOrZero (n : Option Nat) : List Byte :=
  byte4 (n.getD 0)

/-- Port code. -/
def portCode : Port → Nat
  | .east => 1
  | .west => 2
  | .tap => 3

/-- Tap side code of a line. -/
def lineCode : Line → Nat
  | .east => 1
  | .west => 2

/-- Accept set code. -/
def acceptCode (a : PortSet) : Nat :=
  a.east.toNat + 2 * a.west.toNat + 4 * a.tap.toNat

/-- Action code. -/
def actionCode : Action → Nat
  | .pass => 1
  | .deliver => 2
  | .passAndDeliver => 3
  | .discard => 4

/-- Slot state code of a readable record. -/
def recStateCode : RecState → Nat
  | .pending => 1
  | .live => 2
  | .retired => 3

/-- Operating state code; HELD and the unpowered condition are never reported (R178). -/
def opStateCode : OpState → Nat
  | .mounting => 1
  | .running => 2
  | .bypass => 3
  | .held => 0
  | .noPower => 0

/-- Mode code. -/
def modeCode : Mode → Nat
  | .run => 1
  | .bypass => 2

/-- No-route action code. -/
def noRouteCode : NoRouteAction → Nat
  | .discard => 1
  | .deliver => 2

/-- Segment state code. -/
def segStateCode : SegState → Nat
  | .clean => 1
  | .opened => 2
  | .filled => 3
  | .faulted => 4
  | .erasing => 5
  | .torn => 6

/-- Fault kind code. -/
def faultKindCode : FaultKind → Nat
  | .writeFault => 0x01
  | .sealFault => 0x02
  | .promoteFault => 0x03
  | .retireFault => 0x04
  | .voidFault => 0x05
  | .eraseTimeout => 0x06
  | .stampFault => 0x07
  | .eraseAborted => 0x08
  | .configFault => 0x09
  | .stageExpired => 0x0A
  | .mountRepair => 0x0B

/-- Failure causes of ERASE, RECLAIM and SET CONFIG replies. -/
inductive FailureCause where
  | eraseTimeout
  | stampFault
  | write
deriving DecidableEq, Repr

/-- Failure cause code. -/
def causeCode : FailureCause → Nat
  | .eraseTimeout => 0x06
  | .stampFault => 0x07
  | .write => 0x0C

/-- Erase step code. -/
def eraseStepCode : EraseStep → Nat
  | .claimed => 1
  | .running => 2
  | .waiting => 3
  | .suspending => 4
  | .suspended => 5
  | .stopping _ => 6
  | .stamping => 7

/-- Mount phase code. -/
def mountPhaseCode : MountPhase → Nat
  | .headerScan => 1
  | .slotScan => 2
  | .resolve => 3
  | .repair => 4
  | .enter => 5

/-- Batch phase code. -/
def batchPhaseCode : BatchPhase → Nat
  | .write => 1
  | .seal => 2
  | .settle => 3

/-- CONFIG_WRITE phase code: ROTATE, then WRITE. -/
def configPhaseCode : ConfigStep → Nat
  | .erasing => 1
  | .stopping => 1
  | .stamping => 1
  | .writing => 2
  | .voiding => 2

/-- Code of the current operation (Table 11-7); a RECLAIM in its ERASE phase is a RECLAIM (Table 8-3). -/
def operationCode : CurrentOp → Nat
  | .idle => 0
  | .mount _ => 1
  | .commit _ => 2
  | .erase e => if e.reclaim.isSome then 4 else 3
  | .reclaim _ => 4
  | .configWrite _ => 5
  | .restart _ => 6

/-- Code of the phase reported with the current operation (Table 11-7), when it has one. -/
def phaseCode : CurrentOp → Option Nat
  | .idle => none
  | .mount m => some (mountPhaseCode m.phase)
  | .commit b => some (batchPhaseCode b.phase)
  | .erase e => some (eraseStepCode e.step)
  | .reclaim _ => some 8
  | .configWrite w => some (configPhaseCode w.step)
  | .restart _ => none

/-! ## Records (Tables 11-8 to 11-10, 11-13) -/

/-- The seven bytes of an entry image behind its kind (Table 11-8); a WITHDRAW is its channel and zeros. -/
def entryTail (e : Entry) : List Byte :=
  match e.kind with
  | .route f =>
    byte2 e.channel ++ byte1 (acceptCode f.accept) ++ byte1 (actionCode f.action) ++ pairOrZero f.outChannel ++
      byteOrZero (f.tapSide.map lineCode)
  | .withdraw => byte2 e.channel ++ [0, 0, 0, 0, 0]

/-- Record kind code. -/
def contentKindCode : Content → Nat
  | .entry ⟨_, .route _⟩ => 1
  | .entry ⟨_, .withdraw⟩ => 2
  | .seal _ => 3

/-- The slot image of a readable record (Table 11-9). -/
def recordImage (r : SlotRecord) : List Byte :=
  byte1 (recStateCode r.state) ++ byte1 (contentKindCode r.content) ++ byte4 r.issue ++
    match r.content with
    | .entry e => entryTail e
    | .seal n => byte1 n ++ [0, 0, 0, 0, 0, 0]

/-- The read result and, with RECORD, the slot image (Tables 11-6, 11-9). -/
def readResultBytes : ReadResult → List Byte
  | .blank => 0x01 :: byte1 0x00 ++ List.replicate 12 0
  | .void => 0x01 :: byte1 0xFF ++ List.replicate 12 0
  | .record r => 0x01 :: recordImage r
  | .marginFail => [0x02]
  | .unreadable => [0x03]

/-- A configuration record (Table 11-10). -/
def configBytes (c : ConfigRecord) : List Byte :=
  byte2 c.station ++ byte1 c.holdLimit ++ byte1 (noRouteCode c.noRoute) ++ byte2 c.guardLow ++ byte2 c.guardHigh ++
    byte1 (modeCode c.startMode)

/-- A fault record (Table 11-13). -/
def faultBytes (r : FaultRecord) : List Byte :=
  byte1 (faultKindCode r.kind) ++ byteOrFF r.seg ++ byteOrFF r.slot ++ pairOrZero r.channel ++ quadOrZero r.issue ++
    byteOrZero (r.origin.map (fun o => portCode o.port)) ++ byteOrZero (r.origin.map (fun o => o.tag.toNat))

/-- The eighteen counters in the order of Table 7-3. -/
def Counters.toList (c : Counters) : List Nat :=
  [c.received, c.check, c.format, c.ingressFull, c.noRoute, c.notAccepted, c.holdExpired, c.stale, c.discarded,
   c.noDeliverToSelf, c.passed, c.delivered, c.mgmtConsumed, c.mgmtPassed, c.bypassed, c.tapIdle, c.egressFull,
   c.replyLost]

/-- A slot address or none, as READ INDEX gives it (Table 11-6). -/
def positionBytes : Option SlotAddr → List Byte
  | some a => byte1 a.seg ++ byte1 a.slot
  | none => [0xFF, 0xFF]

/-! ## STATUS and DESCRIBE (Tables 11-11, 11-12) -/

/-- The number of route segments in a state, when the segment states have values (R159, R160). -/
def State.segCount (s : State) (x : SegState) : Option Nat :=
  if (s.seg 0).state.isSome then
    some ((List.range Config.routeSegments).countP (fun g => s.segIs g x))
  else none

/-- The results of STATUS (Tables 8-3, 11-11), all taken at one event (R159). -/
def State.statusResults (s : State) : List Byte :=
  byte1 (opStateCode s.opState) ++ byte1 (operationCode s.op) ++ byteOrFF (phaseCode s.op) ++
    byteOrZero (s.op.origin?.map (fun o => portCode o.port)) ++ byteOrZero (s.op.origin?.map (fun o => o.tag.toNat)) ++
    byteOrFF (s.suspended.map EraseRec.seg) ++ byte1 s.queue.length ++ byte1 s.staging.entries.length ++
    byteOrZero (s.staging.owner.map portCode) ++ byteOrFF s.openSeg ++
    byteOrFF (s.segCount .clean) ++ byteOrFF (s.segCount .opened) ++ byteOrFF (s.segCount .filled) ++
    byteOrFF (s.segCount .faulted) ++ byteOrFF (s.segCount .erasing) ++ byteOrFF (s.segCount .torn) ++
    byte1 s.faults.length ++ byte1 s.overflow ++ quadOrZero s.issue ++ byte1 s.guardRelease.toNat

/-- The results of DESCRIBE (Tables 8-4, 11-12). -/
def describeResults : List Byte :=
  byte1 Config.familyCode ++ byte2 Config.partNumber ++ byte1 (Config.revisionIndex.val + 1) ++
    byte4 Config.factorySerial.toNat ++
    byte1 4 ++ byte1 8 ++ byte1 Config.slotsPerSegment ++ byte1 2 ++ byte1 Config.slotsPerCfgSegment ++
    byte1 Config.stagingCapacity ++ byte1 Config.imagesPerStage ++ byte1 Config.queueCapacity ++
    byte1 Config.faultCapacity ++ byte1 Config.maxPayload ++ byte2 Config.typicalProgramUs ++
    byte2 Config.typicalEraseMs ++ byte2 Config.eraseTimeoutMs ++ byte2 Config.minimumRunUs

/-! ## Results of the queued kinds (Table 11-6) -/

/-- One item of a SETTLE_FAULT reply (Table 3-3, Table 11-6). -/
def settleItem (e : Entry) (faults : List FaultKind) : List Byte :=
  byte2 e.channel ++ byte1 (if FaultKind.promoteFault ∈ faults then 2 else 1) ++ byte1 faults.length ++
    ((faults.map (fun k => BitVec.ofNat 8 (faultKindCode k))) ++ List.replicate 4 0).take 4

/-- The items of a SETTLE_FAULT reply: one for each entry that met a fault, in batch order (R61). -/
def settleItems : List Entry → List (List FaultKind) → List (List Byte)
  | e :: es, f :: fs => if f = [] then settleItems es fs else settleItem e f :: settleItems es fs
  | _, _ => []

/-- The erase active time in whole milliseconds, rounded down (R78). -/
def wholeMs (us : Nat) : Nat :=
  us / 1000

/-- The fields of an ERASE reply; those a status does not fill are absent (Table 4-3, Table 11-6). -/
structure EraseResult where
  seg : Nat
  cause : Option FailureCause := none
  erases : Option Nat := none
  activeUs : Option Nat := none
  suspensions : Option Nat := none
  inUse : Option Nat := none

/-- The bytes of an ERASE reply (Table 11-6). -/
def eraseResultBytes (r : EraseResult) : List Byte :=
  byte1 r.seg ++ byteOrFF (r.cause.map causeCode) ++ quadOrZero r.erases ++ pairOrZero (r.activeUs.map wholeMs) ++
    pairOrZero r.suspensions ++ byteOrFF r.inUse

/-- The fields of a RECLAIM reply; those a status does not fill are absent (Table 4-4, Table 11-6). -/
structure ReclaimResult where
  seg : Nat
  state : Option SegState := none
  tallies : Option Tallies := none
  cause : Option FailureCause := none
  erases : Option Nat := none
  inUse : Option Nat := none
  needed : Option Nat := none
  failedIssue : Option Nat := none
  failedSeg : Option Nat := none

/-- The bytes of a RECLAIM reply (Table 11-6). -/
def reclaimResultBytes (r : ReclaimResult) : List Byte :=
  byte1 r.seg ++ byteOrFF (r.state.map segStateCode) ++ pairOrZero (r.tallies.map Tallies.moved) ++
    pairOrZero (r.tallies.map Tallies.skipped) ++ byteOrFF (r.tallies.map Tallies.sealed) ++
    pairOrZero (r.tallies.map Tallies.settleFaulted) ++ byteOrFF (r.cause.map causeCode) ++ quadOrZero r.erases ++
    byteOrFF r.inUse ++ byteOrFF r.needed ++ quadOrZero r.failedIssue ++ byteOrFF r.failedSeg

/-- The fields of a SET CONFIG reply; those a status does not fill are absent (Table 9-3, Table 11-6). -/
structure SetConfigResult where
  issue : Option Nat := none
  seg : Option Nat := none
  slot : Option Nat := none
  rotated : Bool := false
  cause : Option FailureCause := none
  erases : Option Nat := none
  voidFails : Option Nat := none
  field : Option Nat := none
  guardLow : Option Nat := none
  guardHigh : Option Nat := none

/-- The bytes of a SET CONFIG reply (Table 11-6). -/
def setConfigResultBytes (r : SetConfigResult) : List Byte :=
  quadOrZero r.issue ++ byteOrFF r.seg ++ byteOrFF r.slot ++ byte1 r.rotated.toNat ++ byteOrFF (r.cause.map causeCode) ++
    quadOrZero r.erases ++ byteOrFF r.voidFails ++ byteOrFF r.field ++ pairOrZero r.guardLow ++ pairOrZero r.guardHigh

end Sys2Proof.Machine
end

