-- ==== Sys2Proof/Machine/Banks.lean ====
section
/-! DEFINITION. The Bank Access Units: read queue, claims and the claim marker, grants, release (chapter 5). -/

namespace Sys2Proof.Machine

/-- A readable bank starts the head of its queue whenever no read is in flight (R91). -/
def BankState.readable : BankState → Bool
  | .free => true
  | .eraseSuspended => true
  | _ => false

/-- The state of a bank with no work under way: ERASE_SUSPENDED when an erase is suspended in it, else FREE (R91, R97). -/
def BankUnit.restState (u : BankUnit) : BankState :=
  if u.suspended.isSome then .eraseSuspended else .free

/-- The erase record in progress, current or held as the suspended-erase record, changed in place (R108). -/
def State.mapErase (s : State) (f : EraseRec → EraseRec) : State :=
  match s.op with
  | .erase e => { s with op := .erase (f e) }
  | _ => { s with suspended := s.suspended.map f }

/-- The lookup stage of a port passes from WAIT_BANK to READING (R93). -/
def Stage.started : Stage → Stage
  | .waitBank h => .reading h
  | other => other

/-- The head of a bank's queue starts when the bank is readable, or DRAINING with the head counted, and no read is in
flight (R93). -/
def State.startHead (b : Bank) (s : State) : State :=
  match (s.bank b).inFlight, (s.bank b).queue with
  | none, q :: rest =>
    if (s.bank b).state.readable || (decide ((s.bank b).state = .draining) && q.counted) then
      (s.setBank b { s.bank b with
          inFlight := some { target := .slot q.addr, party := .lookup q.stage, counted := q.counted }
          queue := rest }).setStage q.stage (s.stages.get q.stage).started
    else s
  | _, _ => s

/-- The effect of a claim's grant (R96). A resume restarts the run interval timer (R75), an erase starts it (R67). The reasons
are examined at the grant of an erase claim (R200): with one standing the step passes through RUNNING to WAITING and the bank
becomes SUSPEND_WAIT. A resume is claimed only where no reason stands (R75). -/
def State.grant (b : Bank) (c : Claim) (s : State) : State :=
  match c with
  | .program p =>
    { s.setBank b { s.bank b with state := .programming, claim := none } with program := some p }
  | .erase g =>
    let waits := s.suspensionReason g
    (s.setBank b { s.bank b with state := if waits then .suspendWait else .eraseRunning, claim := none }).mapErase
      (fun e => { e with step := if waits then .waiting else .running, runTimer := true })
  | .resume _ =>
    (s.setBank b { s.bank b with state := .eraseRunning, claim := none, suspended := none }).mapErase
      (fun e => { e with step := .running, runTimer := true })
  | .read t =>
    s.setBank b { s.bank b with
      state := (s.bank b).restState
      claim := none
      inFlight := some { target := t, party := .engine, counted := false } }

/-- The number of reads queued or in flight in a bank (R95). -/
def BankUnit.waiting (u : BankUnit) : Nat :=
  u.queue.length + (if u.inFlight.isSome then 1 else 0)

/-- The bank with a claim recorded: the marker set and every read counted (R95). -/
def BankUnit.claimed (u : BankUnit) (c : Claim) : BankUnit :=
  { u with
    claim := some c
    marker := u.waiting
    queue := u.queue.map (fun q => { q with counted := true })
    inFlight := u.inFlight.map (fun r => { r with counted := true }) }

/-- A claim on a bank (R95): granted at once when no read waits, else the bank drains the counted reads. In a bank that
serves no reads the claim is held until the bank's work ends (R98). -/
def State.makeClaim (b : Bank) (c : Claim) (s : State) : State :=
  match (s.bank b).state with
  | .programming | .eraseRunning | .suspendWait => s.setBank b ((s.bank b).claimed c)
  | .free | .draining | .eraseSuspended =>
    if (s.bank b).waiting = 0 then (s.setBank b ((s.bank b).claimed c)).grant b c
    else (s.setBank b { (s.bank b).claimed c with state := .draining }).startHead b

/-- A counted read has left a bank: the marker decreases, and at 0 a DRAINING bank grants its claim, or returns to rest
when the claim was withdrawn (R96). -/
def State.markerDown (b : Bank) (s : State) : State :=
  let u := { s.bank b with marker := (s.bank b).marker - 1 }
  if u.state = .draining ∧ u.marker = 0 then
    match u.claim with
    | some c => (s.setBank b u).grant b c
    | none => s.setBank b { u with state := u.restState }
  else s.setBank b u

/-- A read in flight has completed (R93, R96): the marker, a grant it allows, and the start of the next head. -/
def State.readDone (b : Bank) (s : State) : State :=
  match (s.bank b).inFlight with
  | some r =>
    let s1 := s.setBank b { s.bank b with inFlight := none }
    (if r.counted then s1.markerDown b else s1).startHead b
  | none => s

/-- The work of a bank has ended (R97): it returns to rest, a claim held meanwhile is taken up (R98), and the head of
the queue is started. -/
def State.release (b : Bank) (s : State) : State :=
  match (s.bank b).claim with
  | none => (s.setBank b { s.bank b with state := (s.bank b).restState }).startHead b
  | some c =>
    if (s.bank b).marker = 0 then s.grant b c
    else (s.setBank b { s.bank b with state := .draining }).startHead b

/-- An erase of a bank has ended: no erase is suspended in it and its work is released (R69, R73, R76, R77). A bank in
DRAINING or PROGRAMMING for other work goes on with it (R116). -/
def State.releaseErase (b : Bank) (s : State) : State :=
  let s1 := s.setBank b { s.bank b with suspended := none }
  match (s1.bank b).state with
  | .draining | .programming => s1
  | _ => s1.release b

/-- An erase claim withdrawn at CLAIMED (R76, R96): the bank drains its counted reads and then becomes FREE. -/
def State.withdrawClaim (b : Bank) (s : State) : State :=
  let s1 := s.setBank b { s.bank b with claim := none }
  if (s1.bank b).marker = 0 then s1.release b else s1

/-- A lookup stage requests a read of a slot (R92): it starts at once in a readable bank with nothing waiting, else it
joins the queue with its hold timer started for the hold limit in force (R100). -/
def State.requestRead (p : Port) (h : InHand) (a : SlotAddr) (s : State) : State :=
  let b := bankOf a.seg
  let u := s.bank b
  if u.state.readable && u.queue.isEmpty && u.inFlight.isNone then
    (s.setBank b { u with inFlight := some { target := .slot a, party := .lookup p, counted := false } }).setStage p
      (.reading { h with addr := a })
  else
    (s.setBank b { u with
        queue := u.queue ++ [{ addr := a, stage := p, holdUnits := s.config.values.holdLimit, counted := false }] }).setStage p
      (.waitBank { h with addr := a })

/-- The read queued for the lookup stage of a port is withdrawn from a bank (R101, R141): the marker when it was
counted, a grant that allows, and the start of a new head. -/
def State.withdrawRead (p : Port) (b : Bank) (s : State) : State :=
  match (s.bank b).queue.find? (fun q => q.stage = p) with
  | some q =>
    let s1 := s.setBank b { s.bank b with queue := (s.bank b).queue.filter (fun x => x.stage ≠ p) }
    (if q.counted then s1.markerDown b else s1).startHead b
  | none => s

/-- A program claim of the engine: on the bank of the slot or header (R95), or on the configuration bank, which starts
it at once (R102). -/
def State.claimProgram (p : Program) (s : State) : State :=
  let inCfg : State := { s with cfgBank := { s.cfgBank with state := .programming }, program := some p }
  match p.job with
  | .slot a _ => s.makeClaim (bankOf a.seg) (.program p)
  | .stamp seg _ => if seg < Config.routeSegments then s.makeClaim (bankOf seg) (.program p) else inCfg
  | .cfgRecord _ _ _ => inCfg
  | .cfgVoid _ => inCfg

/-- A read claim of the engine: on a route bank (R95, R99), or on the configuration bank, performed at once (R102). -/
def State.claimRead (t : ReadTarget) (s : State) : State :=
  let seg :=
    match t with
    | .slot a => a.seg
    | .header g => g
  if seg < Config.routeSegments then s.makeClaim (bankOf seg) (.read t)
  else { s with cfgBank := { s.cfgBank with inFlight := some t } }

/-- The engine's read of a target is in flight (R99, R102). -/
def State.engineReads (s : State) (t : ReadTarget) : Bool :=
  let seg :=
    match t with
    | .slot a => a.seg
    | .header g => g
  if seg < Config.routeSegments then
    match (s.bank (bankOf seg)).inFlight with
    | some ⟨t', .engine, _⟩ => t' = t
    | _ => false
  else s.cfgBank.inFlight = some t

/-- The engine's read of a target has completed: its bank goes on (R93, R102). -/
def State.engineReadDone (t : ReadTarget) (s : State) : State :=
  let seg :=
    match t with
    | .slot a => a.seg
    | .header g => g
  if seg < Config.routeSegments then s.readDone (bankOf seg)
  else { s with cfgBank := { s.cfgBank with inFlight := none } }

/-- The in-use count of the segment of a slot after a completed program of a commit or relocation batch (R64). -/
def State.countInUse (a : SlotAddr) (w : SlotWrite) (pass : Bool) (s : State) : State :=
  let before := s.store.slot a
  let n := s.inUseOf a.seg
  match w with
  | .entry _ _ => if pass && decide (before = .blank) then s.setInUse a.seg (n + 1) else s
  | .seal _ _ => s
  | .promote => if !pass && before.inUse then s.setInUse a.seg (n - 1) else s
  | .retire => if before.inUse then s.setInUse a.seg (n - 1) else s
  | .void => if before.inUse then s.setInUse a.seg (n - 1) else s

/-- The bank or configuration bank of a program that has ended is released (R97, R102). -/
def State.releaseProgram (j : Job) (s : State) : State :=
  let inCfg : State := { s with cfgBank := { s.cfgBank with state := .free } }
  match j with
  | .slot a _ => s.release (bankOf a.seg)
  | .stamp seg _ => if seg < Config.routeSegments then s.release (bankOf seg) else inCfg
  | .cfgRecord _ _ _ => inCfg
  | .cfgVoid _ => inCfg

/-- The end of the program in progress, by its completion or its deadline (R8, R9, R19, R97): the store takes its
result, the in-use counts follow a slot program that is no repair (R64), and the bank is released. -/
def State.endProgram (p : Program) (pass : Bool) (s : State) : State :=
  let s1 : State :=
    match p.job with
    | .slot a w => if p.role = .repair then s else s.countInUse a w pass
    | _ => s
  ({ s1 with store := s1.store.programmed p.job pass, program := none } : State).releaseProgram p.job

end Sys2Proof.Machine
end

