-- ==== Sys2Proof/Machine/Mount.lean ====
section
/-! DEFINITION. Reset, cut-short work, and the mount: scans, resolution, repair, entry into the start mode (chapter 10). -/

namespace Sys2Proof.Machine

/-! ## Reset -/

/-- The store after an erase that a reset or power loss cuts short: torn when the erase had begun (R22, R79). -/
def Store.cutErase (m : Store) (e : EraseRec) : Store :=
  if e.step.touchesStore then m.torn e.seg else m

/-- The store after the program in progress is cut short, as a failed program (R22). -/
def State.cutProgram (s : State) : Store :=
  match s.program with
  | some p => s.store.programmed p.job false
  | none => s.store

/-- What the store holds after a reset or power loss cuts the work in progress short (R22). -/
def State.cutShort (s : State) : Store :=
  let m := s.cutProgram
  let m := match s.suspended with
    | some e => m.cutErase e
    | none => m
  match s.op with
  | .erase e => m.cutErase e
  | .configWrite w =>
    match w.step, w.target with
    | .erasing, some g => m.torn g.id
    | .stopping, some g => m.torn g.id
    | _, _ => m
  | _ => m

/-- Every piece of volatile state at its reset value (R179); the store keeps what it then holds (R22), the input levels
and the waiting commands stand as they are. The operating state is that of the caller. -/
def State.volatileReset (s : State) (o : OpState) : State :=
  { State.reset with
    resetAsserted := s.resetAsserted
    guardRelease := s.guardRelease
    opState := o
    store := s.cutShort
    pending := s.pending }

/-- The mount's working state at its beginning (R184). -/
def Mount.start : Mount :=
  { phase := .headerScan, headers := [], scan := { seg := 0, slot := 0 }, slots := [], cfgSlots := [], cands := [], repairs := [] }

/-- The mount begins (R184): MOUNTING, the current operation MOUNT in HEADER SCAN, the first header read claimed. -/
def State.beginMount (s : State) : State :=
  ({ s with opState := .mounting, op := .mount Mount.start } : State).claimRead (.header 0)

/-- The internal reset performed at the end of a RESTART (R182). -/
def State.internalReset (s : State) : State :=
  (s.volatileReset .mounting).beginMount

/-! ## Header scan (R185) -/

/-- The largest erase count recorded from a stamped header of the segments `lo..hi`, 0 when there is none (R11). -/
def largestErases (headers : List (Option Nat)) (lo hi : Nat) : Nat :=
  (List.range Config.segments).foldl
    (fun best g => if lo ≤ g ∧ g ≤ hi then max best ((headers.getD g none).getD 0) else best) 0

/-- The volatile erase count that the header scan gives a segment (R11). -/
def erasesFromHeaders (headers : List (Option Nat)) (g : Nat) : Nat :=
  match headers.getD g none with
  | some n => n
  | none =>
    if g < Config.routeSegments then largestErases headers 0 31
    else largestErases headers Config.segCA Config.segCB

/-- The volatile erase counts of all segments set (R11, R185). -/
def State.setAllErases (s : State) (headers : List (Option Nat)) : State :=
  (List.range Config.segments).foldl
    (fun acc g => acc.setSeg g { acc.seg g with erases := some (erasesFromHeaders headers g) }) s

/-- A segment was recorded stamped (R185). -/
def Mount.stamped (m : Mount) (g : Nat) : Bool :=
  (m.headers.getD g none).isSome

/-- The first segment recorded stamped from `g` on (R186). -/
def Mount.nextStamped (m : Mount) (g : Nat) : Option Nat :=
  (List.range Config.segments).find? (fun x => decide (g ≤ x) && m.stamped x)

/-- The number of slots of a segment (R1). -/
def slotsOf (seg : Nat) : Nat :=
  if seg < Config.routeSegments then Config.slotsPerSegment else Config.slotsPerCfgSegment

/-- The slot whose read follows that of `a` in SLOT SCAN, if any (R186). -/
def Mount.scanAfter (m : Mount) (a : SlotAddr) : Option SlotAddr :=
  if a.slot + 1 < slotsOf a.seg then some { a with slot := a.slot + 1 }
  else (m.nextStamped (a.seg + 1)).map (fun g => { seg := g, slot := 0 })

/-! ## Resolution (R187 to R191) -/

/-- The address of a route slot key. -/
def slotOfKey (k : Nat) : SlotAddr :=
  { seg := k / Config.slotsPerSegment, slot := k % Config.slotsPerSegment }

/-- The address of a configuration slot key. -/
def cfgSlotOfKey (k : Nat) : SlotAddr :=
  { seg := Config.segCA + k / Config.slotsPerCfgSegment, slot := k % Config.slotsPerCfgSegment }

/-- A slot recorded as a LIVE SEAL with its issue seals the slot with this key and issue (R187). -/
def sealsKey (key issue : Nat) (kv : Nat × Slot) : Bool :=
  match kv.2 with
  | .written ⟨.live, sealIssue, .seal n⟩ =>
    decide (kv.1 / Config.slotsPerSegment = key / Config.slotsPerSegment) && decide (key < kv.1) &&
      decide (kv.1 ≤ key + n) && decide (sealIssue = issue)
  | _ => false

/-- A recorded ROUTE or WITHDRAW slot is sealed (R187). -/
def sealedBy (slots : Table Slot) (key issue : Nat) : Bool :=
  slots.any (sealsKey key issue)

/-- An entry is a ROUTE. -/
def Entry.isRoute (e : Entry) : Bool :=
  match e.kind with
  | .route _ => true
  | .withdraw => false

/-- A recorded slot as a candidate for its channel (R187). -/
def candidateOf (slots : Table Slot) (kv : Nat × Slot) : Option Candidate :=
  match kv.2 with
  | .written ⟨st, issue, .entry e⟩ =>
    if st ≠ .retired ∧ sealedBy slots kv.1 issue then
      some { channel := e.channel, addr := slotOfKey kv.1, issue := issue, isRoute := e.isRoute, isLive := decide (st = .live) }
    else none
  | _ => none

/-- The VOID program that Table 10-3 lists for a recorded slot, if any (R187). -/
def voidRepairOf (slots : Table Slot) (kv : Nat × Slot) : Option Repair :=
  match kv.2 with
  | .indeterminate =>
    some { addr := slotOfKey kv.1, act := .void, group := none, recChannel := none, recIssue := none }
  | .written ⟨st, issue, .entry e⟩ =>
    if st ≠ .retired ∧ ¬ sealedBy slots kv.1 issue then
      some { addr := slotOfKey kv.1, act := .void, group := none, recChannel := some e.channel, recIssue := some issue }
    else none
  | _ => none

/-- The VOID program listed for a configuration slot recorded MARGIN_FAIL (R192). -/
def cfgVoidRepairOf (kv : Nat × CfgSlot) : Option Repair :=
  match kv.2 with
  | .indeterminate =>
    some { addr := cfgSlotOfKey kv.1, act := .void, group := none, recChannel := none, recIssue := none }
  | _ => none

/-- The candidate with the higher issue number of two, the first when they are equal. -/
def higherIssue (best : Option Candidate) (c : Candidate) : Option Candidate :=
  match best with
  | none => some c
  | some b => if b.issue < c.issue then some c else some b

/-- The winner of a channel among candidates (R188). -/
def winnerOf (cands : List Candidate) (channel : Nat) : Option Candidate :=
  (cands.filter (fun c => c.channel = channel)).foldl higherIssue none

/-- A candidate inserted in increasing order of issue number. -/
def insertByIssue (c : Candidate) : List Candidate → List Candidate
  | [] => [c]
  | x :: xs => if c.issue ≤ x.issue then c :: x :: xs else x :: insertByIssue c xs

/-- The losers of a channel in increasing order of issue number (R188). -/
def losersOf (cands : List Candidate) (channel : Nat) (winner : Candidate) : List Candidate :=
  (cands.filter (fun c => decide (c.channel = channel) && decide (c.addr ≠ winner.addr))).foldr insertByIssue []

/-- A program of the repair list made to a candidate (R188). -/
def Candidate.repair (c : Candidate) (act : RepairAct) : Repair :=
  { addr := c.addr, act := act, group := some c.channel, recChannel := some c.channel, recIssue := some c.issue }

/-- The repairs listed for a channel (Table 10-4). -/
def repairsOf (cands : List Candidate) (channel : Nat) : List Repair :=
  match winnerOf cands channel with
  | none => []
  | some w =>
    let retires := (losersOf cands channel w).map (fun c => c.repair .retire)
    if w.isRoute then (if w.isLive then [] else [w.repair .promote]) ++ retires
    else retires ++ [w.repair .retire]

/-- The index position that a channel's resolution gives (Table 10-4). -/
def positionOf (cands : List Candidate) (channel : Nat) : Option SlotAddr :=
  match winnerOf cands channel with
  | some w => if w.isRoute then some w.addr else none
  | none => none

/-- A channel inserted in increasing order, once. -/
def insertChannel (c : Nat) : List Nat → List Nat
  | [] => [c]
  | x :: xs => if c < x then c :: x :: xs else if c = x then x :: xs else x :: insertChannel c xs

/-- The channels that have candidates, in increasing order. -/
def channelsOf (cands : List Candidate) : List Nat :=
  cands.foldr (fun c acc => insertChannel c.channel acc) []

/-- The issue number recorded in a route slot, 0 when none is (R189). -/
def recordedIssue : Slot → Nat
  | .written r => r.issue
  | _ => 0

/-- The issue number recorded in a configuration slot, 0 when none is (R189). -/
def recordedCfgIssue : CfgSlot → Nat
  | .live issue _ => issue
  | _ => 0

/-- The issue counter that RESOLVE sets (R46, R189). -/
def Mount.issueCounter (m : Mount) : Nat :=
  max (m.slots.foldl (fun acc kv => max acc (recordedIssue kv.2)) 0)
    (m.cfgSlots.foldl (fun acc kv => max acc (recordedCfgIssue kv.2)) 0) + 1

/-- The slot after the last slot of a segment not recorded BLANK, or 0 (R17, R190, R191). -/
def fillFrom {α : Type} (slots : Table α) (size index : Nat) : Nat :=
  slots.foldl (fun acc kv => if kv.1 / size = index then kv.1 % size + 1 else acc) 0

/-- The fill pointer of a segment at RESOLVE (R17). -/
def Mount.fill (m : Mount) (g : Nat) : Nat :=
  if g < Config.routeSegments then fillFrom m.slots Config.slotsPerSegment g
  else fillFrom m.cfgSlots Config.slotsPerCfgSegment (g - Config.segCA)

/-- The LIVE seal with the highest issue number so far: its issue and its segment. -/
def higherSeal (best : Option (Nat × Nat)) (kv : Nat × Slot) : Option (Nat × Nat) :=
  match kv.2 with
  | .written ⟨.live, issue, .seal _⟩ =>
    match best with
    | some (i, _) => if i < issue then some (issue, kv.1 / Config.slotsPerSegment) else best
    | none => some (issue, kv.1 / Config.slotsPerSegment)
  | _ => best

/-- The segment that holds the LIVE seal with the highest issue number recorded (R190). -/
def Mount.sealSegment (m : Mount) : Option Nat :=
  (m.slots.foldl higherSeal none).map Prod.snd

/-- The volatile state of a route segment at RESOLVE (R190). -/
def Mount.routeState (m : Mount) (g : Nat) : SegState :=
  if !m.stamped g then .torn
  else if m.fill g = 0 then .clean
  else if m.sealSegment = some g ∧ m.fill g < Config.slotsPerSegment then .opened
  else .filled

/-- The LIVE configuration record with the higher issue number. -/
def higherConfig (best : Option (ConfigSource × ConfigRecord)) (kv : Nat × CfgSlot) : Option (ConfigSource × ConfigRecord) :=
  match kv.2 with
  | .live issue c =>
    match best with
    | some b => if b.1.issue < issue then some (⟨issue, cfgSlotOfKey kv.1⟩, c) else some b
    | none => some (⟨issue, cfgSlotOfKey kv.1⟩, c)
  | _ => best

/-- The configuration in force after RESOLVE (R191). -/
def Mount.inForce (m : Mount) : InForce :=
  match m.cfgSlots.foldl higherConfig none with
  | some (src, c) => { values := c, source := some src }
  | none => InForce.reset

/-- The volatile state of a configuration segment at RESOLVE (R191). -/
def Mount.cfgState (m : Mount) (g : Nat) : SegState :=
  if !m.stamped g then .torn
  else if m.inForce.source.map (fun src => src.addr.seg) = some g then .opened
  else if m.fill g = 0 then .clean
  else .filled

/-- The volatile states and fill pointers of all segments set (R190, R191). -/
def State.setAllSegments (s : State) (m : Mount) : State :=
  (List.range Config.segments).foldl
    (fun acc g =>
      acc.setSegFill g (if g < Config.routeSegments then m.routeState g else m.cfgState g)
        (if m.stamped g then m.fill g else 0)) s

/-- The Channel Index that the candidates give (R28, R188). -/
def indexFrom (cands : List Candidate) : Table (Option SlotAddr) :=
  (channelsOf cands).foldl (fun acc ch => tablePut none ch (positionOf cands ch) acc) []

/-- The repair list (R192): route voids, configuration voids, then the repairs of each channel in increasing order. -/
def Mount.repairList (m : Mount) (cands : List Candidate) : List Repair :=
  m.slots.filterMap (voidRepairOf m.slots) ++ m.cfgSlots.filterMap cfgVoidRepairOf ++
    ((channelsOf cands).map (repairsOf cands)).flatten

/-! ## Repair and entry (R192 to R194) -/

/-- What a repair program writes (Table 1-2). -/
def RepairAct.write : RepairAct → SlotWrite
  | .void => .void
  | .promote => .promote
  | .retire => .retire

/-- The program of a repair (R192). -/
def Repair.program (r : Repair) : Program :=
  if r.addr.seg < Config.routeSegments then { role := .repair, job := .slot r.addr r.act.write }
  else { role := .repair, job := .cfgVoid r.addr }

/-- The number of slots of a segment that the working state shows counted in use (R194). -/
def Mount.inUse (m : Mount) (g : Nat) : Nat :=
  m.slots.countP (fun kv => decide (kv.1 / Config.slotsPerSegment = g) && kv.2.inUse)

/-- The ENTER event (R194): in-use counts set, the start mode entered, the current operation IDLE. -/
def State.enter (m : Mount) (s : State) : State :=
  let s1 := (List.range Config.routeSegments).foldl (fun acc g => acc.setInUse g (m.inUse g)) s
  { s1 with
    op := .idle
    opState :=
      match s.config.values.startMode with
      | .run => .running
      | .bypass => .bypass }

/-- The first program of the repair list is claimed, or, when the list is empty, REPAIR ends (R192, R194). -/
def State.nextRepair (m : Mount) (s : State) : State :=
  match m.repairs with
  | r :: _ => ({ s with op := .mount m } : State).claimProgram r.program
  | [] => s.enter m

/-- RESOLVE, performed whole at one event (R187 to R191); REPAIR begins at that event (R192). -/
def State.resolve (m : Mount) (s : State) : State :=
  let cands := m.slots.filterMap (candidateOf m.slots)
  let s1 := s.setAllSegments m
  let s2 : State := { s1 with index := indexFrom cands, issue := some m.issueCounter, config := m.inForce }
  s2.nextRepair { m with phase := .repair, cands := cands, repairs := m.repairList cands }

/-- SLOT SCAN begins at the first stamped segment, or RESOLVE when there is none (R185). -/
def State.beginSlotScan (m : Mount) (s : State) : State :=
  match m.nextStamped 0 with
  | some g =>
    ({ s with op := .mount { m with phase := .slotScan, scan := { seg := g, slot := 0 } } } : State).claimRead
      (.slot { seg := g, slot := 0 })
  | none => s.resolve m

/-- A header read of the mount has completed with a result (R185). -/
def State.headerScanned (m : Mount) (r : Option Nat) (s : State) : State :=
  let m1 := { m with headers := m.headers ++ [r] }
  if m1.headers.length < Config.segments then
    ({ s with op := .mount m1 } : State).claimRead (.header m1.headers.length)
  else (s.setAllErases m1.headers).beginSlotScan m1

/-- The result of the slot read of SLOT SCAN recorded (R186). -/
def Mount.recorded (m : Mount) (s : State) (marginLost : Bool) : Mount :=
  if m.scan.seg < Config.routeSegments then
    { m with slots := tablePut .blank (slotKey m.scan) (recordOfRead (s.readSlotResult m.scan marginLost)) m.slots }
  else
    { m with cfgSlots := tablePut .blank (cfgKey m.scan) (readCfgCells (s.store.cfgSlot m.scan) marginLost) m.cfgSlots }

/-- A slot read of the mount has been recorded: the next is claimed, or RESOLVE follows the last (R186). -/
def State.slotScanned (m : Mount) (s : State) : State :=
  match m.scanAfter m.scan with
  | some a => ({ s with op := .mount { m with scan := a } } : State).claimRead (.slot a)
  | none => s.resolve m

/-- The working state after a repair program that passed (R192). -/
def Mount.repaired (m : Mount) (r : Repair) (rest : List Repair) : Mount :=
  if r.addr.seg < Config.routeSegments then
    { m with
      repairs := rest
      slots := tablePut .blank (slotKey r.addr) (r.act.write.passed (tableGet .blank m.slots (slotKey r.addr))) m.slots }
  else { m with repairs := rest, cfgSlots := tablePut .blank (cfgKey r.addr) .void m.cfgSlots }

/-- The MOUNT_REPAIR record of a failed repair program (R193). -/
def Repair.faultRecord (r : Repair) : FaultRecord :=
  { kind := .mountRepair, seg := some r.addr.seg, slot := some r.addr.slot, channel := r.recChannel, issue := r.recIssue, origin := none }

/-- A segment becomes FAULTED from OPEN or FILLED at a failed VOID program of REPAIR (R193). -/
def State.faultSegmentAtMount (g : Nat) (s : State) : State :=
  if g < Config.routeSegments ∧ (s.segIs g .opened ∨ s.segIs g .filled) then s.setSegState g .faulted else s

/-- The working state after a repair program that failed: the slot is no longer counted (R194). -/
def Mount.unrecorded (m : Mount) (r : Repair) : Mount :=
  if r.addr.seg < Config.routeSegments then
    { m with slots := tablePut .blank (slotKey r.addr) .indeterminate m.slots }
  else { m with cfgSlots := tablePut .blank (cfgKey r.addr) .indeterminate m.cfgSlots }

/-- What follows a failed repair program (R193). -/
def State.repairFailed (m : Mount) (r : Repair) (rest : List Repair) (s : State) : State :=
  let m1 := m.unrecorded r
  let s1 := s.addFault r.faultRecord
  match r.act with
  | .void => (s1.faultSegmentAtMount r.addr.seg).nextRepair { m1 with repairs := rest }
  | .retire => s1.nextRepair { m1 with repairs := { r with act := .void } :: rest }
  | .promote =>
    let ch := r.group.getD 0
    let cands := m1.cands.filter (fun c => c.addr ≠ r.addr)
    (s1.setPosition ch (positionOf cands ch)).nextRepair
      { m1 with
        cands := cands
        repairs := { r with act := .void } :: repairsOf cands ch ++ rest.filter (fun x => x.group ≠ r.group) }

/-- The end of the repair program in progress (R192, R193); the program itself has ended. -/
def State.repairDone (pass : Bool) (s : State) : State :=
  match s.op with
  | .mount m =>
    match m.repairs with
    | r :: rest => if pass then s.nextRepair (m.repaired r rest) else s.repairFailed m r rest
    | [] => s
  | _ => s

end Sys2Proof.Machine
end

