-- ==== Sys2Proof/Machine/Engine.lean ====
section
/-! DEFINITION. The Update Engine: batches (chapter 3), erase and reclaim (chapter 4), configuration writes (chapter 9),
RESTART and the start rule (chapter 6). An operation that ends leaves the current operation IDLE; engineNext then applies
the start rule. -/

namespace Sys2Proof.Machine

/-! ## Requests -/

/-- The request kind of a queued request. -/
def QueuedKind.reqKind : QueuedKind → ReqKind
  | .commit _ => .commit
  | .erase _ => .erase
  | .reclaim _ => .reclaim
  | .setConfig _ => .setConfig
  | .restart => .restart

/-- The current operation ends; its record is discarded (R107). -/
def State.endOp (s : State) : State :=
  { s with op := .idle }

/-- The issue counter as an operation meets it; without a value no number can be taken (R46). -/
def State.issueNow (s : State) : Nat :=
  s.issue.getD Config.issueEnd

/-- The issue counter stands at the value that is never assigned (R45). -/
def State.issueExhausted (s : State) : Bool :=
  Config.issueEnd ≤ s.issueNow

/-! ## The batch of a commit or of a relocation (R51 to R59, R84) -/

/-- The batch being written, of the commit or of the reclaim that is current. -/
def State.batch? (s : State) : Option Batch :=
  match s.op with
  | .commit b => some b
  | .reclaim r =>
    match r.stage with
    | .writing b => some b
    | .reading _ _ => none
  | _ => none

/-- The state with the record of the batch being written replaced. -/
def State.setBatch (b : Batch) (s : State) : State :=
  match s.op with
  | .commit _ => { s with op := .commit b }
  | .reclaim r => { s with op := .reclaim { r with stage := .writing b } }
  | _ => s

/-- The slot of the entry in position k of a batch, counting from 0 (R52). -/
def Batch.own (b : Batch) (k : Nat) : SlotAddr :=
  { seg := b.seg, slot := b.first + k }

/-- The seal slot of a batch (R54). -/
def Batch.sealSlot (b : Batch) : SlotAddr :=
  { seg := b.seg, slot := b.first + b.entries.length }

/-- The channel of the entry in position k. -/
def Batch.channelAt (b : Batch) (k : Nat) : Option Nat :=
  (b.entries[k]?).map Entry.channel

/-- The predecessor of the entry in position k (R26). -/
def Batch.predAt (b : Batch) (k : Nat) : Option SlotAddr :=
  b.preds.getD k none

/-- A fault record of a batch: with its issue number and the port and tag of its request (R53 to R59, R84). -/
def Batch.faultRecord (b : Batch) (kind : FaultKind) (a : SlotAddr) (channel : Option Nat) : FaultRecord :=
  { kind := kind, seg := some a.seg, slot := some a.slot, channel := channel, issue := some b.issue, origin := some b.origin }

/-- The seal program of a batch is issued (R54). -/
def State.issueSeal (b : Batch) (s : State) : State :=
  ((s.setBatch { b with phase := .seal, step := .seal }).bumpFill b.seg).claimProgram
    { role := .seal, job := .slot b.sealSlot (.seal b.issue b.entries.length) }

/-- The program of the entry in position k is issued, or, past the last, the seal's (R52, R54). -/
def State.issueWrite (b : Batch) (k : Nat) (s : State) : State :=
  match b.entries[k]? with
  | some e =>
    ((s.setBatch { b with phase := .write, step := .write k }).bumpFill b.seg).claimProgram
      { role := .write, job := .slot (b.own k) (.entry b.issue e) }
  | none => s.issueSeal b

/-- The placement of a batch that needs `n` slots (R49): in the OPEN segment, in a segment to be allocated, or nowhere. -/
inductive Placement where
  | inOpen
  | inFresh (g : Nat)
  | noRoom
deriving DecidableEq, Repr

/-- The space check (R49). -/
def State.placement (s : State) (n : Nat) : Placement :=
  let fresh : Placement :=
    match s.allocatable with
    | some g => .inFresh g
    | none => .noRoom
  match s.openSeg with
  | some o => if n ≤ Config.slotsPerSegment - s.fillOf o then .inOpen else fresh
  | none => fresh

/-- Allocation where the space check called for it (R50, R83). -/
def State.allocateFor (s : State) : Placement → State
  | .inFresh g => s.allocate g
  | .inOpen => s
  | .noRoom => s

/-- The record of a batch at the event at which it passes its start checks (R50). -/
def State.newBatch (s : State) (o : Origin) (entries : List Entry) (issue : Nat) : Batch :=
  let g := s.openSeg.getD 0
  { origin := o, entries := entries, issue := issue, seg := g, first := s.fillOf g, phase := .write, step := .write 0,
    preds := [], faults := [], voidFails := 0 }

/-- The batch enters its WRITE phase (R50, R83): allocation, the issue number taken, the first program issued. `op` is
the current operation that holds the batch. -/
def State.beginBatch (o : Origin) (entries : List Entry) (pl : Placement) (op : Batch → CurrentOp) (s : State) : State :=
  let s1 := s.allocateFor pl
  let b := s1.newBatch o entries s.issueNow
  ({ s1 with issue := some (s.issueNow + 1), op := op b } : State).issueWrite b 0

/-- A COMMIT that has become the current operation (R47 to R50). -/
def State.startCommit (o : Origin) (batch : List Entry) (s : State) : State :=
  match s.guardRelease, firstGuarded s.config.values batch with
  | false, some ch => s.replyStored o .commit .guarded (byte2 ch)
  | _, _ =>
    match s.placement (batch.length + 1) with
    | .noRoom => s.replyStored o .commit .noSpace (byte1 (batch.length + 1))
    | pl =>
      if s.issueExhausted then s.replyStored o .commit .issueExhausted []
      else s.beginBatch o batch pl .commit

/-! ## Erase (R66 to R79) -/

/-- The erase record in progress is discarded, wherever it is held (R78, R108). -/
def State.discardErase (s : State) : State :=
  match s.op with
  | .erase _ => s.endOp
  | _ => { s with suspended := none }

/-- The reply of an erase's originating request (R78, R88). -/
def State.replyErase (e : EraseRec) (st : Status) (fields : EraseResult) (s : State) : State :=
  match e.reclaim with
  | none => s.replyStored e.origin .erase st (eraseResultBytes fields)
  | some t =>
    s.replyStored e.origin .reclaim st
      (reclaimResultBytes { seg := e.seg, tallies := some t, cause := fields.cause, erases := fields.erases, inUse := fields.inUse })

/-- A fault record of an erase (R69, R71, R77). -/
def EraseRec.faultRecord (e : EraseRec) (kind : FaultKind) : FaultRecord :=
  { kind := kind, seg := some e.seg, slot := none, channel := none, issue := none, origin := some e.origin }

/-- The segment of an erase that ended without completing: TORN, its cells indeterminate when the erase had begun (R22,
R69, R77). -/
def State.tearSegment (e : EraseRec) (s : State) : State :=
  ({ s with store := s.store.cutErase e } : State).setSegFill e.seg .torn 0

/-- The bank of an erase that ended (R69, R73, R76): at CLAIMED its claim is withdrawn. -/
def State.freeEraseBank (e : EraseRec) (s : State) : State :=
  match e.step with
  | .claimed => s.withdrawClaim (bankOf e.seg)
  | _ => s.releaseErase (bankOf e.seg)

/-- An erase ended by its timeout (R69). -/
def State.eraseTimedOut (e : EraseRec) (s : State) : State :=
  ((((s.tearSegment e).freeEraseBank e).addFault (e.faultRecord .eraseTimeout)).replyErase e .eraseFault
    { seg := e.seg, cause := some .eraseTimeout, erases := some (s.erasesOf e.seg), activeUs := some e.activeUs,
      suspensions := some e.suspensions }).discardErase

/-- An erase ended by abandonment (R77). A RECLAIM's reply gives the segment and the tallies (Table 4-4). -/
def State.eraseAbandoned (e : EraseRec) (s : State) : State :=
  ((((s.tearSegment e).freeEraseBank e).addFault (e.faultRecord .eraseAborted)).replyErase e .abandoned
    { seg := e.seg, activeUs := some e.activeUs, suspensions := some e.suspensions }).discardErase

/-- An erase ended by a stop or by a held mark of this cause (R69, R73, R77). -/
def State.eraseStopped (cause : StopCause) (e : EraseRec) (s : State) : State :=
  match cause with
  | .timeout => s.eraseTimedOut e
  | .abandon => s.eraseAbandoned e

/-- An erase that has passed its start checks begins (R67): ERASING, the erase record, the erase claim. -/
def State.beginErase (g : Nat) (o : Origin) (t : Option Tallies) (s : State) : State :=
  let e : EraseRec :=
    { seg := g, origin := o, reclaim := t, step := .claimed, activeUs := 0, suspensions := 0, runTimer := false, held := [] }
  ({ s.setSegState g .erasing with op := .erase e } : State).makeClaim (bankOf g) (.erase g)

/-- The start checks of an erase (R66, R86) and, when they pass, its beginning. -/
def State.checkErase (g : Nat) (o : Origin) (t : Option Tallies) (s : State) : State :=
  let e : EraseRec :=
    { seg := g, origin := o, reclaim := t, step := .claimed, activeUs := 0, suspensions := 0, runTimer := false, held := [] }
  if s.inUseOf g ≠ 0 then (s.replyErase e .segmentInUse { seg := g, inUse := some (s.inUseOf g) }).endOp
  else if s.worn g then (s.replyErase e .worn { seg := g, erases := some (s.erasesOf g) }).endOp
  else s.beginErase g o t

/-- The erase completion (R70): the count, STAMPING, the bank released and claimed for the stamp. -/
def State.eraseCompleted (e : EraseRec) (s : State) : State :=
  let s1 := s.bumpErases e.seg
  let s2 : State := { s1 with store := s1.store.erased e.seg }
  (((s2.mapErase (fun x => { x with activeUs := e.activeUs, step := .stamping, runTimer := false })).release (bankOf e.seg))).claimProgram
    { role := .stamp, job := .stamp e.seg (s1.erasesOf e.seg) }

/-- The end of the stamp program (R71); the program itself has ended. -/
def State.stampDone (pass : Bool) (e : EraseRec) (s : State) : State :=
  let fields : EraseResult :=
    { seg := e.seg, erases := some (s.erasesOf e.seg), activeUs := some e.activeUs, suspensions := some e.suspensions }
  if pass then
    (((s.setSegFill e.seg .clean 0).setInUse e.seg 0).replyErase e .done fields).discardErase
  else
    (((s.setSegFill e.seg .torn 0).addFault (e.faultRecord .stampFault)).replyErase e .eraseFault
      { fields with cause := some .stampFault }).discardErase

/-- The suspend completion of an erase with no mark held (R73): SUSPENDED, the bank ERASE_SUSPENDED and its reads served. -/
def State.eraseSuspends (e : EraseRec) (s : State) : State :=
  let b := bankOf e.seg
  let s1 := s.mapErase (fun _ => { e with step := .suspended, suspensions := e.suspensions + 1, runTimer := false })
  (s1.setBank b { s1.bank b with suspended := some e.seg }).release b

/-- The engine looks again at the end of the run interval (R73). -/
def State.lookAgain (e : EraseRec) (s : State) : State :=
  let b := bankOf e.seg
  if s.suspensionReason e.seg then
    (s.mapErase (fun x => { x with step := .suspending })).setBank b { s.bank b with state := .suspendWait }
  else
    (s.mapErase (fun x => { x with step := .running })).setBank b { s.bank b with state := .eraseRunning }

/-- A suspension reason has appeared in RUNNING (R73): WAITING, and a look at once when the interval has ended. -/
def State.reasonAppears (e : EraseRec) (s : State) : State :=
  let b := bankOf e.seg
  let s1 := (s.mapErase (fun x => { x with step := .waiting })).setBank b { s.bank b with state := .suspendWait }
  if e.runTimer then s1 else s1.lookAgain { e with step := .waiting }

/-- The suspension reasons of a RUNNING erase examined (R72, R73): one that stands has just appeared. -/
def State.examineReasons (s : State) : State :=
  match s.op with
  | .erase e => if e.step = .running ∧ s.suspensionReason e.seg = true then s.reasonAppears e else s
  | _ => s

/-- The resume condition of a SUSPENDED erase examined (R75). -/
def State.examineResume (s : State) : State :=
  match s.op with
  | .erase e => if e.step = .suspended ∧ s.resumeAllowed e = true then s.makeClaim (bankOf e.seg) (.resume e.seg) else s
  | _ => s

/-- The reasons and the resume condition of the current erase examined, at the end of an event (R72, R73, R75; log 10). -/
def State.examineErase (s : State) : State :=
  s.examineReasons.examineResume

/-! ## Reclaim (R80 to R89) -/

/-- The position names a slot of the segment at or above the cursor (R81). -/
def sourceOf (g cursor : Nat) (kv : Nat × Option SlotAddr) : Option Source :=
  match kv.2 with
  | some a => if a.seg = g ∧ cursor ≤ a.slot then some { slot := a.slot, channel := kv.1 } else none
  | none => none

/-- A source inserted in increasing slot order. -/
def insertSource (x : Source) : List Source → List Source
  | [] => [x]
  | y :: ys => if x.slot ≤ y.slot then x :: y :: ys else y :: insertSource x ys

/-- The group gathered at the beginning of a relocation batch (R81). -/
def State.gather (s : State) (g cursor : Nat) : List Source :=
  (((s.index.filterMap (sourceOf g cursor)).foldr insertSource [])).take Config.groupSize

/-- The slot after the last of a group (R81). -/
def cursorAfter : List Source → Nat → Nat
  | [], c => c
  | x :: xs, _ => cursorAfter xs (x.slot + 1)

/-- The next group is gathered and its first source read claimed, or the ERASE phase begins (R81, R82, R86). -/
def State.relocateNext (r : ReclaimRec) (s : State) : State :=
  match s.gather r.seg r.cursor with
  | [] => s.checkErase r.seg r.origin (some r.tallies)
  | x :: xs =>
    ({ s with op := .reclaim { r with cursor := cursorAfter (x :: xs) r.cursor, stage := .reading (x :: xs) [] } } : State).claimRead
      (.slot { seg := r.seg, slot := x.slot })

/-- A RECLAIM ends in RELOCATE with its reply (R88). -/
def State.endReclaim (r : ReclaimRec) (st : Status) (fields : ReclaimResult) (s : State) : State :=
  (s.replyStored r.origin .reclaim st (reclaimResultBytes { fields with seg := r.seg, tallies := some r.tallies })).endOp

/-- A RECLAIM that has become the current operation (R80). -/
def State.startReclaim (o : Origin) (g : Nat) (s : State) : State :=
  let zero : Tallies := { moved := 0, skipped := 0, sealed := 0, settleFaulted := 0 }
  let r : ReclaimRec := { seg := g, origin := o, cursor := 0, tallies := zero, abandoned := false, stage := .reading [] [] }
  match (s.seg g).state with
  | some .opened => (s.setSegState g .filled).relocateNext r
  | some .filled => s.relocateNext r
  | some .faulted => s.relocateNext r
  | other => s.replyStored o .reclaim .segmentState (reclaimResultBytes { seg := g, state := other })

/-- The start checks of a relocation batch at its last source read completion (R83). -/
def State.startRelocation (r : ReclaimRec) (images : List Entry) (s : State) : State :=
  match s.placement (images.length + 1) with
  | .noRoom => s.endReclaim r .noSpace { seg := r.seg, needed := some (images.length + 1) }
  | pl =>
    if s.issueExhausted then s.endReclaim r .issueExhausted { seg := r.seg }
    else s.beginBatch r.origin images pl (fun b => .reclaim { r with stage := .writing b })

/-- A source read has completed with a result (R82, R87); its bank has gone on. -/
def State.sourceRead (r : ReclaimRec) (x : Source) (rest : List Source) (images : List Entry) (res : ReadResult) (s : State) : State :=
  let checked := routeCheck res x.channel
  let images1 :=
    match checked with
    | some f => images ++ [{ channel := x.channel, kind := .route f }]
    | none => images
  let r1 : ReclaimRec :=
    match checked with
    | some _ => r
    | none => { r with tallies := { r.tallies with skipped := r.tallies.skipped + 1 } }
  if r1.abandoned then s.endReclaim r1 .abandoned { seg := r1.seg }
  else
    match rest with
    | y :: ys =>
      ({ s with op := .reclaim { r1 with stage := .reading (y :: ys) images1 } } : State).claimRead
        (.slot { seg := r1.seg, slot := y.slot })
    | [] => if images1.isEmpty then s.relocateNext r1 else s.startRelocation r1 images1

/-! ## The end of a batch (R60, R61, R84, R85) -/

/-- The number of entries of a batch that met a PROMOTE_FAULT. -/
def Batch.promoteFaults (b : Batch) : Nat :=
  b.faults.countP (fun f => decide (FaultKind.promoteFault ∈ f))

/-- The number of entries of a batch that met any fault in SETTLE. -/
def Batch.settleFaults (b : Batch) : Nat :=
  b.faults.countP (fun f => decide (f ≠ []))

/-- The batch has ended its SETTLE phase (R60, R84, R87). -/
def State.batchSettled (b : Batch) (s : State) : State :=
  match s.op with
  | .reclaim r =>
    let t := r.tallies
    let r1 : ReclaimRec :=
      { r with tallies :=
          { moved := t.moved + (b.entries.length - b.promoteFaults), skipped := t.skipped, sealed := t.sealed + 1,
            settleFaulted := t.settleFaulted + b.settleFaults } }
    if r1.abandoned then s.endReclaim r1 .abandoned { seg := r1.seg } else s.relocateNext r1
  | _ =>
    let head := byte4 b.issue ++ byte1 b.seg ++ byte1 b.first
    if b.settleFaults = 0 then (s.replyStored b.origin .commit .done head).endOp
    else
      (s.replyStored b.origin .commit .settleFault
        (head ++ byte1 b.settleFaults ++ (settleItems b.entries b.faults).flatten)).endOp

/-- The batch has ended its VOID programs after a WRITE_FAULT or SEAL_FAULT (R53, R55, R85). -/
def State.batchVoided (b : Batch) (failedSlot : Nat) (channel : Option Nat) (s : State) : State :=
  match s.op with
  | .reclaim r =>
    s.endReclaim r (if b.phase = .write then .writeFault else .sealFault)
      { seg := r.seg, failedIssue := some b.issue, failedSeg := some b.seg }
  | _ =>
    let head := byte4 b.issue ++ byte1 b.seg ++ byte1 failedSlot
    if b.phase = .write then
      (s.replyStored b.origin .commit .writeFault (head ++ pairOrZero channel ++ byte1 b.voidFails)).endOp
    else (s.replyStored b.origin .commit .sealFault (head ++ byte1 b.voidFails)).endOp

/-! ## Fault handling and SETTLE (R53 to R59) -/

/-- The next VOID program of a WRITE_FAULT or SEAL_FAULT is issued, or the batch ends (R53, R55). -/
def State.issueVoid (b : Batch) (failedSlot : Nat) (channel : Option Nat) (todo : List VoidTarget) (s : State) : State :=
  match todo with
  | t :: _ =>
    (s.setBatch { b with step := .voiding failedSlot channel todo }).claimProgram
      { role := .void, job := .slot { seg := b.seg, slot := t.slot } .void }
  | [] => s.batchVoided b failedSlot channel

/-- The slots to be voided after the entry in position k failed: its own, then each earlier one (R53). -/
def Batch.voidsAfterWrite (b : Batch) (k : Nat) : List VoidTarget :=
  { slot := b.first + k, channel := b.channelAt k } ::
    (List.range k).map (fun i => { slot := b.first + i, channel := b.channelAt i })

/-- The slots to be voided after the seal failed: its own, then each entry's in batch order (R55). -/
def Batch.voidsAfterSeal (b : Batch) : List VoidTarget :=
  { slot := b.sealSlot.slot, channel := none } ::
    (List.range b.entries.length).map (fun i => { slot := b.first + i, channel := b.channelAt i })

/-- The slot that a SETTLE step programs (R56 to R58). -/
def Batch.settleSlot (b : Batch) (k : Nat) (st : SettleStep) : SlotAddr :=
  match st with
  | .promote | .retireOwn | .voidOwn => b.own k
  | .retirePred | .voidPred => (b.predAt k).getD (b.own k)

/-- What a SETTLE step programs. -/
def SettleStep.write : SettleStep → SlotWrite
  | .promote => .promote
  | .retirePred => .retire
  | .retireOwn => .retire
  | .voidPred => .void
  | .voidOwn => .void

/-- The completion command that ends the program of a SETTLE step. -/
def SettleStep.role : SettleStep → ProgramRole
  | .promote => .settle
  | .retirePred => .settle
  | .retireOwn => .settle
  | .voidPred => .void
  | .voidOwn => .void

/-- A step of SETTLE is issued (R56). -/
def State.issueSettle (b : Batch) (k : Nat) (st : SettleStep) (s : State) : State :=
  (s.setBatch { b with phase := .settle, step := .settle k st }).claimProgram
    { role := st.role, job := .slot (b.settleSlot k st) st.write }

/-- The first step of the entry in position k is issued, or, past the last, SETTLE ends (R56). -/
def State.settleEntry (b : Batch) (k : Nat) (s : State) : State :=
  match b.entries[k]? with
  | some e =>
    match e.kind, b.predAt k with
    | .route _, _ => s.issueSettle b k .promote
    | .withdraw, some _ => s.issueSettle b k .retirePred
    | .withdraw, none => s.issueSettle b k .retireOwn
  | none => s.batchSettled b

/-- What follows a SETTLE step that passed, or the VOID program that followed its failure (R56 to R58). -/
def State.settleAfter (b : Batch) (k : Nat) (st : SettleStep) (s : State) : State :=
  match st with
  | .promote =>
    match b.predAt k with
    | some _ => s.issueSettle b k .retirePred
    | none => s.settleEntry b (k + 1)
  | .retirePred | .voidPred =>
    match (b.entries[k]?).map Entry.kind with
    | some .withdraw => s.issueSettle b k .retireOwn
    | _ => s.settleEntry b (k + 1)
  | .retireOwn | .voidOwn => s.settleEntry b (k + 1)

/-- A batch with a fault kind added to those of the entry in position k (R51). -/
def Batch.withFault (b : Batch) (k : Nat) (kind : FaultKind) : Batch :=
  { b with faults := b.faults.modify k (fun f => f ++ [kind]) }

/-- A SETTLE step that failed (R57, R58): the record, the revert of a failed promotion (R27), and the VOID program. -/
def State.settleFailed (b : Batch) (k : Nat) (st : SettleStep) (s : State) : State :=
  let a := b.settleSlot k st
  match st with
  | .promote =>
    ((s.setPosition ((b.channelAt k).getD 0) (b.predAt k)).addFault (b.faultRecord .promoteFault a (b.channelAt k))).issueSettle
      (b.withFault k .promoteFault) k .voidOwn
  | .retirePred =>
    (s.addFault (b.faultRecord .retireFault a (b.channelAt k))).issueSettle (b.withFault k .retireFault) k .voidPred
  | _ =>
    (s.addFault (b.faultRecord .retireFault a (b.channelAt k))).issueSettle (b.withFault k .retireFault) k .voidOwn

/-- A segment becomes FAULTED from OPEN, FILLED or FAULTED (R59). -/
def State.faultSegment (g : Nat) (s : State) : State :=
  if s.segIs g .opened ∨ s.segIs g .filled ∨ s.segIs g .faulted then s.setSegState g .faulted else s

/-- The index switched for every entry of a batch at its seal completion (R26). -/
def State.switchIndex (b : Batch) (s : State) : State :=
  b.entries.zipIdx.foldl
    (fun acc ek => acc.setPosition ek.1.channel (if ek.1.isRoute then some (b.own ek.2) else none)) s

/-- The end of an entry's program (R52, R53); the program itself has ended. -/
def State.writeDone (pass : Bool) (s : State) : State :=
  match s.batch? with
  | some b =>
    match b.step with
    | .write k =>
      if pass then s.issueWrite b (k + 1)
      else
        (s.addFault (b.faultRecord .writeFault (b.own k) (b.channelAt k))).issueVoid b (b.first + k) (b.channelAt k)
          (b.voidsAfterWrite k)
    | _ => s
  | none => s

/-- The end of the seal's program (R54, R55); the program itself has ended. -/
def State.sealDone (pass : Bool) (s : State) : State :=
  match s.batch? with
  | some b =>
    match b.step with
    | .seal =>
      if pass then
        let b1 : Batch :=
          { b with
            phase := .settle
            preds := b.entries.map (fun e => s.position e.channel)
            faults := b.entries.map (fun _ => []) }
        (s.switchIndex b).settleEntry b1 0
      else
        (s.addFault (b.faultRecord .sealFault b.sealSlot none)).issueVoid b b.sealSlot.slot none b.voidsAfterSeal
    | _ => s
  | none => s

/-- The end of a promotion or retire (R56 to R58); the program itself has ended. -/
def State.settleDone (pass : Bool) (s : State) : State :=
  match s.batch? with
  | some b =>
    match b.step with
    | .settle k st => if pass then s.settleAfter b k st else s.settleFailed b k st
    | _ => s
  | none => s

/-- The end of a VOID program of a batch (R59); the program itself has ended. -/
def State.voidDone (pass : Bool) (s : State) : State :=
  match s.batch? with
  | some b =>
    match b.step with
    | .voiding failedSlot channel (t :: rest) =>
      if pass then s.issueVoid b failedSlot channel rest
      else
        ((s.addFault (b.faultRecord .voidFault { seg := b.seg, slot := t.slot } t.channel)).faultSegment b.seg).issueVoid
          { b with voidFails := b.voidFails + 1 } failedSlot channel rest
    | .settle k st =>
      if pass then s.settleAfter b k st
      else
        let a := b.settleSlot k st
        ((s.addFault (b.faultRecord .voidFault a (b.channelAt k))).faultSegment a.seg).settleAfter
          (b.withFault k .voidFault) k st
    | _ => s
  | none => s

/-! ## Configuration writes (R166 to R174) -/

/-- The SET CONFIG ends with its reply (R174). -/
def State.endConfig (o : Origin) (st : Status) (fields : SetConfigResult) (s : State) : State :=
  (s.replyStored o .setConfig st (setConfigResultBytes fields)).endOp

/-- A fault record of a configuration write (R171, R173). -/
def ConfigWrite.faultRecord (w : ConfigWrite) (kind : FaultKind) (seg : Nat) (slot : Option Nat) (issue : Option Nat) : FaultRecord :=
  { kind := kind, seg := some seg, slot := slot, channel := none, issue := issue, origin := some w.origin }

/-- The WRITE phase begins (R172): the issue number taken, the program claimed at the fill pointer of the OPEN segment. -/
def State.beginConfigWrite (w : ConfigWrite) (s : State) : State :=
  match s.openCfgSeg with
  | some g =>
    let a : SlotAddr := { seg := g.id, slot := s.fillOf g.id }
    let n := s.issueNow
    ({ s.bumpFill g.id with
        issue := some (n + 1)
        op := .configWrite { w with step := .writing, issue := some n, slot := some a } } : State).claimProgram
      { role := .configWrite, job := .cfgRecord a n w.new }
  | none => s

/-- A configuration segment becomes OPEN with fill pointer 0; another that was OPEN becomes FILLED (R169, R170). -/
def State.openConfigSegment (g : CfgSeg) (s : State) : State :=
  match s.openCfgSeg with
  | some o => if o = g then s.setSegFill g.id .opened 0 else (s.setSegState o.id .filled).setSegFill g.id .opened 0
  | none => s.setSegFill g.id .opened 0

/-- The configuration segments that do not hold the record in force (R169). -/
def State.rotationCandidates (s : State) : List CfgSeg :=
  [CfgSeg.ca, CfgSeg.cb].filter (fun g => s.config.source.map (fun src => src.addr.seg) ≠ some g.id)

/-- Of the candidates, the one with the lower erase count, CA on a tie (R169). -/
def State.leastWorn (s : State) : List CfgSeg → Option CfgSeg
  | [] => none
  | [a] => some a
  | a :: b :: _ => some (if s.erasesOf b.id < s.erasesOf a.id then b else a)

/-- The rotation target among the candidates when none is CLEAN (R169). -/
def State.rotationTarget (s : State) (cands : List CfgSeg) : Option CfgSeg :=
  match cands.filter (fun g => s.segIs g.id .torn) with
  | [g] => some g
  | _ => s.leastWorn cands

/-- ROTATE, when the checks have passed (R169, R170). -/
def State.rotate (w : ConfigWrite) (s : State) : State :=
  let room :=
    match s.openCfgSeg with
    | some g => decide (s.fillOf g.id < Config.slotsPerCfgSegment)
    | none => false
  if room then s.beginConfigWrite w
  else
    match s.leastWorn (s.rotationCandidates.filter (fun g => s.segIs g.id .clean)) with
    | some g => (s.openConfigSegment g).beginConfigWrite w
    | none =>
      match s.rotationTarget s.rotationCandidates with
      | some g =>
        if s.worn g.id then s.endConfig w.origin .worn { seg := some g.id, erases := some (s.erasesOf g.id) }
        else
          { s.setSegFill g.id .torn 0 with
            cfgBank := { s.cfgBank with state := .eraseRunning }
            op := .configWrite { w with step := .erasing, target := some g, rotated := true } }
      | none => s

/-- A SET CONFIG that has become the current operation (R166 to R169). -/
def State.startSetConfig (o : Origin) (img : ConfigImage) (s : State) : State :=
  match configOfImage img with
  | .error field => s.endConfig o .badRequest { field := some field }
  | .ok c =>
    if narrows s.config.values c && !s.guardRelease then
      s.endConfig o .guarded { guardLow := some s.config.values.guardLow, guardHigh := some s.config.values.guardHigh }
    else if s.issueExhausted then s.endConfig o .issueExhausted {}
    else
      s.rotate { origin := o, new := c, step := .erasing, target := none, rotated := false, issue := none, slot := none, voidFails := 0 }

/-- The rotation erase completion (R170): the count, and the stamp program claimed. -/
def State.configErased (w : ConfigWrite) (g : CfgSeg) (s : State) : State :=
  let s1 := s.bumpErases g.id
  ({ s1 with
      store := s1.store.erased g.id
      op := .configWrite { w with step := .stamping } } : State).claimProgram
    { role := .configStamp, job := .stamp g.id (s1.erasesOf g.id) }

/-- A rotation that failed ends the SET CONFIG (R171): the target stays TORN. -/
def State.rotationFailed (w : ConfigWrite) (g : CfgSeg) (cause : FailureCause) (s : State) : State :=
  (s.addFault (w.faultRecord .configFault g.id none none)).endConfig w.origin .configFault
    { seg := some g.id, cause := some cause, erases := some (s.erasesOf g.id) }

/-- The end of the rotation stamp program (R170, R171); the program itself has ended. -/
def State.configStampDone (pass : Bool) (w : ConfigWrite) (g : CfgSeg) (s : State) : State :=
  if pass then (s.openConfigSegment g).beginConfigWrite w else s.rotationFailed w g .stampFault

/-- The stop completion of a timed-out rotation erase (R171). -/
def State.configStopped (w : ConfigWrite) (g : CfgSeg) (s : State) : State :=
  ({ s with store := s.store.torn g.id, cfgBank := { s.cfgBank with state := .free } } : State).rotationFailed w g .eraseTimeout

/-- The end of the configuration record program (R172, R173); the program itself has ended. -/
def State.configWriteDone (pass : Bool) (w : ConfigWrite) (a : SlotAddr) (n : Nat) (s : State) : State :=
  if pass then
    ({ s with config := { values := w.new, source := some { issue := n, addr := a } } } : State).endConfig w.origin .done
      { issue := some n, seg := some a.seg, slot := some a.slot, rotated := w.rotated,
        erases := if w.rotated then some (s.erasesOf a.seg) else none }
  else
    ({ s.addFault (w.faultRecord .configFault a.seg (some a.slot) (some n)) with
        op := .configWrite { w with step := .voiding } } : State).claimProgram { role := .configVoid, job := .cfgVoid a }

/-- The end of the VOID program after a failed configuration write (R173); the program itself has ended. -/
def State.configVoidDone (pass : Bool) (w : ConfigWrite) (a : SlotAddr) (n : Nat) (s : State) : State :=
  let fields : SetConfigResult :=
    { issue := some n, seg := some a.seg, slot := some a.slot, cause := some .write,
      voidFails := some (w.voidFails + if pass then 0 else 1) }
  if pass then s.endConfig w.origin .configFault fields
  else
    (s.addFault (w.faultRecord .voidFault a.seg (some a.slot) (some n))).endConfig w.origin .configFault fields

/-! ## Restart (R117, R118) -/

/-- The requests behind a RESTART answered CANCELLED in queue order; the number of replies that found room (R117). -/
def State.cancelAll : List QueuedRequest → Nat → State → State × Nat
  | [], n, s => (s, n)
  | q :: qs, n, s =>
    State.cancelAll qs (if s.replyRoom q.origin.port then n + 1 else n)
      (s.replyAwaited q.origin q.kind.reqKind .cancelled)

/-- A RESTART that has become the current operation (R117); when every reply is lost at once, the internal reset is
performed at that event (R118; log 22). -/
def State.startRestart (o : Origin) (s : State) : State :=
  let (s1, n) := State.cancelAll s.queue 0 { s with queue := [] }
  let n1 := if s1.replyRoom o.port then n + 1 else n
  let s2 := s1.replyAwaited o .restart .done
  if n1 = 0 then s2.internalReset else { s2 with op := .restart { origin := o, awaiting := n1 } }

/-- A reply that RESTART awaits has left the unit (R118). -/
def State.awaitedSent (s : State) : State :=
  match s.op with
  | .restart r =>
    if r.awaiting ≤ 1 then s.internalReset else { s with op := .restart { r with awaiting := r.awaiting - 1 } }
  | _ => s

/-! ## The start rule (R109 to R113) -/

/-- A queued request becomes the current operation and its start checks are made (R47, R66, R80, R117, R166). A refused
one leaves the current operation IDLE. -/
def State.startRequest (q : QueuedRequest) (s : State) : State :=
  match q.kind with
  | .commit batch => s.startCommit q.origin batch
  | .erase g => s.checkErase g q.origin none
  | .reclaim g => s.startReclaim q.origin g
  | .setConfig img => s.startSetConfig q.origin img
  | .restart => s.startRestart q.origin

/-- The start rule, applied again after every refused start (R109 to R112). Each round removes the head, so the length
of the queue bounds the rounds. -/
def State.runStart : Nat → State → State
  | 0, s => s
  | n + 1, s =>
    match s.op with
    | .idle =>
      match s.suspended with
      | none =>
        match s.queue with
        | [] => s
        | q :: qs => State.runStart n (({ s with queue := qs } : State).startRequest q)
      | some e =>
        match s.queue with
        | q :: qs =>
          if q.kind.urgent then State.runStart n (({ s with queue := qs } : State).startRequest q)
          else { s with op := .erase e, suspended := none }
        | [] => { s with op := .erase e, suspended := none }
    | .erase e =>
      match e.step, s.queue with
      | .suspended, q :: qs =>
        if q.kind.urgent then
          State.runStart n (({ s with queue := qs, suspended := some e, op := .idle } : State).startRequest q)
        else s
      | _, _ => s
    | _ => s

/-- The start rule applied at an event of R109. -/
def State.engineNext (s : State) : State :=
  State.runStart (s.queue.length + 1) s

/-- A queued request offered to the Request Queue (R106). -/
def State.offer (o : Origin) (k : QueuedKind) (s : State) : State :=
  match s.op with
  | .restart _ => s.replyStored o k.reqKind .notRunning []
  | _ =>
    if Config.queueCapacity ≤ s.queue.length then s.replyStored o k.reqKind .queueFull []
    else if s.queue.isEmpty then ({ s with queue := [{ origin := o, kind := k }] } : State).engineNext
    else { s with queue := s.queue ++ [{ origin := o, kind := k }] }

end Sys2Proof.Machine
end

