-- ==== Sys2Proof/Machine/Requests.lean ====
section
/-! DEFINITION. The Management Responder: the four screens of dispatch and the execution of every request kind (chapters 3,
5, 6, 7, 8, 9, 10). -/

namespace Sys2Proof.Machine

/-! ## Read kinds -/

/-- STATUS (R159, R160). -/
def State.doStatus (o : Origin) (s : State) : State :=
  s.replyRead o ReqKind.status.code .done s.statusResults

/-- DESCRIBE (R161). -/
def State.doDescribe (o : Origin) (s : State) : State :=
  s.replyRead o ReqKind.describe.code .done describeResults

/-- A READ SLOT's read can start: the bank is readable, its queue is empty and no read is in flight (R103). -/
def BankUnit.readSlotStarts (u : BankUnit) : Bool :=
  u.state.readable && u.queue.isEmpty && u.inFlight.isNone

/-- READ SLOT of an address in range (R103): the read starts, or BANK_BUSY. -/
def State.startReadSlot (o : Origin) (a : SlotAddr) (s : State) : State :=
  let b := bankOf a.seg
  if (s.bank b).readSlotStarts then
    s.setBank b { s.bank b with inFlight := some { target := .slot a, party := .readSlot o, counted := false } }
  else s.replyRead o ReqKind.readSlot.code .bankBusy []

/-- READ SLOT (R103). -/
def State.doReadSlot (o : Origin) (params : List Byte) (s : State) : State :=
  match params with
  | [g, n] =>
    if g.toNat < Config.routeSegments ∧ n.toNat < Config.slotsPerSegment then
      s.startReadSlot o { seg := g.toNat, slot := n.toNat }
    else s.replyRead o ReqKind.readSlot.code .badRequest []
  | _ => s.replyRead o ReqKind.readSlot.code .badRequest []

/-- The run of channels of a READ INDEX is one that R31 allows. -/
def indexRunGood (first count : Nat) : Bool :=
  decide (1 ≤ first) && decide (first ≤ Config.maxChannel) && decide (1 ≤ count) && decide (count ≤ Config.indexRun) &&
    decide (first + count - 1 ≤ Config.maxChannel)

/-- The items of a READ INDEX reply: the positions of `count` channels from `first` on (R32). -/
def State.indexItems (s : State) (first count : Nat) : List Byte :=
  ((List.range count).map (fun i => positionBytes (s.position (first + i)))).flatten

/-- READ INDEX (R31, R32). -/
def State.doReadIndex (o : Origin) (params : List Byte) (s : State) : State :=
  match params with
  | [hi, lo, n] =>
    let first := value2 hi lo
    if indexRunGood first n.toNat then
      s.replyRead o ReqKind.readIndex.code .done (byte2 first ++ byte1 n.toNat ++ s.indexItems first n.toNat)
    else s.replyRead o ReqKind.readIndex.code .badRequest []
  | _ => s.replyRead o ReqKind.readIndex.code .badRequest []

/-- The results of a READ COUNTERS (R143, Table 11-6). -/
def State.counterResults (s : State) (p : Port) (flag : Byte) : List Byte :=
  byte1 (portCode p) ++ [flag] ++ ((s.counters.get p).toList.map byte4).flatten

/-- READ COUNTERS as a read (R143). -/
def State.doReadCounters (o : Origin) (params : List Byte) (s : State) : State :=
  match params with
  | [pb, flag] =>
    match portOf pb with
    | some p =>
      if flag = 0 then s.replyRead o ReqKind.readCounters.code .done (s.counterResults p flag)
      else s.replyRead o ReqKind.readCounters.code .badRequest []
    | none => s.replyRead o ReqKind.readCounters.code .badRequest []
  | _ => s.replyRead o ReqKind.readCounters.code .badRequest []

/-- READ COUNTERS with the clear flag set (R143): the values are taken and every counter of the port becomes 0 at one event. -/
def State.doClearCounters (o : Origin) (pb : Byte) (s : State) : State :=
  match portOf pb with
  | some p =>
    ({ s with counters := s.counters.set p Counters.zero } : State).replyStored o .readCounters .done (s.counterResults p 1)
  | none => s.replyStored o .readCounters .badRequest []

/-- READ FAULTS (R121). -/
def State.doReadFaults (o : Origin) (s : State) : State :=
  s.replyRead o ReqKind.readFaults.code .done
    (byte1 s.faults.length ++ byte1 s.overflow ++ (s.faults.map faultBytes).flatten)

/-- READ CONFIG (R165). -/
def State.doReadConfig (o : Origin) (s : State) : State :=
  s.replyRead o ReqKind.readConfig.code .done
    (configBytes s.config.values ++ byte1 (if s.config.source.isSome then 0 else 1) ++
      quadOrZero (s.config.source.map ConfigSource.issue) ++
      byteOrFF (s.config.source.map (fun c => c.addr.seg)) ++ byteOrFF (s.config.source.map (fun c => c.addr.slot)))

/-! ## State-changing immediate kinds -/

/-- CLEAR FAULTS (R122). -/
def State.doClearFaults (o : Origin) (s : State) : State :=
  ({ s with faults := [], overflow := 0 } : State).replyStored o .clearFaults .done
    (byte1 s.faults.length ++ byte1 s.overflow)

/-- The buffer holds entries of another port (R36, R38, R42). -/
def Staging.ownedByOther (b : Staging) (p : Port) : Bool :=
  !b.entries.isEmpty && decide (b.owner ≠ some p)

/-- A STAGE accepted (R37, R39). -/
def State.acceptStage (o : Origin) (es : List Entry) (s : State) : State :=
  let entries := s.staging.entries ++ es
  ({ s with
      staging :=
        { entries := entries
          owner := if s.staging.entries.isEmpty then some o.port else s.staging.owner
          timer := true
          tag := some o.tag } } : State).replyStored o .stage .done (byte1 entries.length)

/-- STAGE of 1 to 8 images (R36). -/
def State.stageImages (o : Origin) (images : List (List Byte)) (s : State) : State :=
  if s.staging.ownedByOther o.port then s.replyStored o .stage .stageOwned []
  else
    match entriesOf 1 images with
    | .error pos => s.replyStored o .stage .badEntry (byte1 pos)
    | .ok es =>
      match firstDuplicate 1 (s.staging.entries.map Entry.channel) es with
      | some pos => s.replyStored o .stage .duplicateChannel (byte1 pos)
      | none =>
        if Config.stagingCapacity < s.staging.entries.length + es.length then
          s.replyStored o .stage .stageFull (byte1 (Config.stagingCapacity - s.staging.entries.length))
        else s.acceptStage o es

/-- STAGE (R36). -/
def State.doStage (o : Origin) (params : List Byte) (s : State) : State :=
  match params with
  | n :: rest =>
    if n.toNat = 0 ∨ Config.imagesPerStage < n.toNat then s.replyStored o .stage .badRequest []
    else s.stageImages o (imagesOf n.toNat rest)
  | [] => s.replyStored o .stage .badRequest []

/-- UNSTAGE (R38). -/
def State.doUnstage (o : Origin) (s : State) : State :=
  if s.staging.ownedByOther o.port then s.replyStored o .unstage .stageOwned []
  else
    ({ s with staging := Staging.reset } : State).replyStored o .unstage .done (byte1 s.staging.entries.length)

/-- A held mark is taken once (R68, R73). -/
def EraseRec.hold (e : EraseRec) (cause : StopCause) : EraseRec :=
  if cause ∈ e.held then e else { e with held := e.held ++ [cause] }

/-- The ABANDON is answered (R114, Table 6-3). -/
def State.answerAbandon (o : Origin) (st : Status) (s : State) : State :=
  s.replyStored o .abandon st []

/-- ABANDON of an erase in progress by its step (Table 4-2). The start rule follows an erase that ends at this event
(R109; log 12). -/
def State.abandonErase (o : Origin) (e : EraseRec) (s : State) : State :=
  match e.step with
  | .claimed => ((s.eraseAbandoned e).answerAbandon o .done).engineNext
  | .suspended => ((s.eraseAbandoned e).answerAbandon o .done).engineNext
  | .running => (s.mapErase (fun x => { x with step := .stopping .abandon, runTimer := false })).answerAbandon o .done
  | .waiting => (s.mapErase (fun x => { x with step := .stopping .abandon, runTimer := false })).answerAbandon o .done
  | .suspending => (s.mapErase (fun x => x.hold .abandon)).answerAbandon o .done
  | .stopping .timeout => s.answerAbandon o .notCancellable
  | .stopping .abandon => s.answerAbandon o .done
  | .stamping => s.answerAbandon o .notCancellable

/-- ABANDON of the request of the current operation (Table 6-3). -/
def State.abandonCurrent (o : Origin) (s : State) : State :=
  match s.op with
  | .erase e => s.abandonErase o e
  | .reclaim r => ({ s with op := .reclaim { r with abandoned := true } } : State).answerAbandon o .done
  | .commit _ => s.answerAbandon o .notCancellable
  | .configWrite _ => s.answerAbandon o .notCancellable
  | .restart _ => s.answerAbandon o .notCancellable
  | .mount _ => s.answerAbandon o .notFound
  | .idle => s.answerAbandon o .notFound

/-- ABANDON of a request in the queue (R115): the target's CANCELLED, the ABANDON's DONE, and the start rule when the
head was removed. -/
def State.abandonQueued (o : Origin) (q : QueuedRequest) (s : State) : State :=
  let headRemoved := decide (s.queue.head? = some q)
  let s1 : State := { s with queue := s.queue.filter (fun x => x.origin ≠ q.origin) }
  let s2 := (s1.replyStored q.origin q.kind.reqKind .cancelled []).answerAbandon o .done
  if headRemoved then s2.engineNext else s2

/-- ABANDON of the request that arrived on this port with this tag (R114, Table 6-3). -/
def State.abandonTarget (o target : Origin) (s : State) : State :=
  match s.queue.find? (fun q => q.origin = target) with
  | some q => s.abandonQueued o q
  | none =>
    if s.op.origin? = some target then s.abandonCurrent o
    else
      match s.suspended with
      | some e => if e.origin = target then s.abandonErase o e else s.answerAbandon o .notFound
      | none => s.answerAbandon o .notFound

/-- ABANDON (R114). -/
def State.doAbandon (o : Origin) (params : List Byte) (s : State) : State :=
  match params with
  | [t] => s.abandonTarget o { port := o.port, tag := t }
  | _ => s.replyStored o .abandon .badRequest []

/-- A frame handled by the Bypass Path without a hand-off (R139, R141): repeated unchanged, or a TAP arrival discarded. -/
def State.repeatFrame (p : Port) (f : Frame) (s : State) : State :=
  match oppositeLine p with
  | some l => (s.placeTraffic l f).count p .bypassed
  | none => s.count p .tapIdle

/-- The lookup stage of a port at the event at which the unit leaves RUNNING for BYPASS (R141). -/
def State.stageLeavesRunning (p : Port) (s : State) : State :=
  match s.stages.get p with
  | .waitBank h => (((s.setStage p .idle).withdrawRead p (bankOf h.addr.seg))).repeatFrame p h.frame
  | .reading h => s.setStage p (.reading { h with leftRunning := true })
  | .idle => s

/-- The operating state becomes RUNNING or BYPASS (R183, R141). -/
def State.setMode (m : Mode) (s : State) : State :=
  match m with
  | .run => { s with opState := .running }
  | .bypass =>
    if s.opState = .running then
      ((({ s with opState := .bypass } : State).stageLeavesRunning .east).stageLeavesRunning .west).stageLeavesRunning .tap
    else { s with opState := .bypass }

/-- SET MODE (R183). On leaving RUNNING the frames of WAIT_BANK stages are repeated before the reply is placed: for an idle
transmitter R136 lets either be taken first, and this order is the model's choice (DESIGN CHOICE, log 30). -/
def State.doSetMode (o : Origin) (params : List Byte) (s : State) : State :=
  match params with
  | [b] =>
    match modeOf b.toNat with
    | some m =>
      (s.setMode m).replyStored o .setMode .done (byte1 (opStateCode s.opState) ++ byte1 (opStateCode (s.setMode m).opState))
    | none => s.replyStored o .setMode .badRequest []
  | _ => s.replyStored o .setMode .badRequest []

/-! ## Queued kinds (R154) -/

/-- COMMIT (R42, R43): the buffer is freed at the acceptance, and stands when the queue refuses the request. -/
def State.doCommit (o : Origin) (s : State) : State :=
  if s.staging.entries.isEmpty then s.replyStored o .commit .stageEmpty []
  else if s.staging.ownedByOther o.port then s.replyStored o .commit .stageOwned []
  else if Config.queueCapacity ≤ s.queue.length then s.replyStored o .commit .queueFull []
  else
    match s.op with
    | .restart _ => s.replyStored o .commit .notRunning []
    | _ => ({ s with staging := Staging.reset } : State).offer o (.commit s.staging.entries)

/-- ERASE (R65). -/
def State.doErase (o : Origin) (params : List Byte) (s : State) : State :=
  match params with
  | [g] =>
    if g.toNat < Config.routeSegments then s.offer o (.erase g.toNat) else s.replyStored o .erase .badRequest []
  | _ => s.replyStored o .erase .badRequest []

/-- RECLAIM (R80). -/
def State.doReclaim (o : Origin) (params : List Byte) (s : State) : State :=
  match params with
  | [g] =>
    if g.toNat < Config.routeSegments then s.offer o (.reclaim g.toNat) else s.replyStored o .reclaim .badRequest []
  | _ => s.replyStored o .reclaim .badRequest []

/-- SET CONFIG (R166). -/
def State.doSetConfig (o : Origin) (params : List Byte) (s : State) : State :=
  match configImageOf params with
  | some img => s.offer o (.setConfig img)
  | none => s.replyStored o .setConfig .badRequest []

/-- RESTART (R117). -/
def State.doRestart (o : Origin) (s : State) : State :=
  s.offer o .restart

/-! ## Dispatch (R149 to R154) -/

/-- A request that has passed the four screens (R153, R154). -/
def State.perform (k : ReqKind) (o : Origin) (params : List Byte) (s : State) : State :=
  match k with
  | .status => s.doStatus o
  | .describe => s.doDescribe o
  | .readSlot => s.doReadSlot o params
  | .readIndex => s.doReadIndex o params
  | .readCounters =>
    match params with
    | [pb, flag] => if flag = 1 then s.doClearCounters o pb else s.doReadCounters o params
    | _ => s.doReadCounters o params
  | .readFaults => s.doReadFaults o
  | .readConfig => s.doReadConfig o
  | .clearFaults => s.doClearFaults o
  | .stage => s.doStage o params
  | .unstage => s.doUnstage o
  | .abandon => s.doAbandon o params
  | .setMode => s.doSetMode o params
  | .commit => s.doCommit o
  | .erase => s.doErase o params
  | .reclaim => s.doReclaim o params
  | .setConfig => s.doSetConfig o params
  | .restart => s.doRestart o

/-- The stored reply that answers a request of a state-changing kind with this tag (R151). -/
def State.storedReply (s : State) (o : Origin) : Option StoredReply :=
  match s.memory.get o.port with
  | some m => if m.tag = o.tag then some m else none
  | none => none

/-- The third and fourth screens, for a known kind (R151, R152), and the execution. -/
def State.screenKnown (k : ReqKind) (o : Origin) (params : List Byte) (s : State) : State :=
  if stateChanging k params then
    match s.storedReply o with
    | some m => s.emitReply o m.kind m.status m.results false
    | none => if lengthGood k params then s.perform k o params else s.replyStored o k .badRequest []
  else if lengthGood k params then s.perform k o params
  else s.replyRead o k.code .badRequest []

/-- The first screen refuses the request: the unit is MOUNTING and the kind is not STATUS (R149). -/
def State.refusedMounting (s : State) (kind : Byte) : Bool :=
  decide (s.opState = .mounting) && decide (kindOf kind ≠ some .status)

/-- Dispatch of a request for this part (R149 to R154). -/
def State.dispatch (r : Request) (s : State) : State :=
  if s.refusedMounting r.kind then s.replyRead r.origin r.kind .notRunning []
  else if s.inProgress r.origin then s.replyRead r.origin r.kind .inProgress []
  else
    match kindOf r.kind with
    | some k => s.screenKnown k r.origin r.params
    | none => s.replyRead r.origin r.kind .badRequest []

end Sys2Proof.Machine
end

