-- ==== Sys2Proof/Machine/Forwarding.lean ====
section
/-! DEFINITION. Frame forwarding: hand-off, lookup, actions, the Bypass Path, carrying across while HELD, taking heads, and
what is examined at the end of every event (chapters 4, 7, 8). -/

namespace Sys2Proof.Machine

/-! ## Hand-off (R127, R146, R147) -/

/-- What the Responder returns to the lookup stage (R127). -/
inductive Disposition where
  | consumed
  | consumedAndPassed
  | passed
deriving DecidableEq, Repr

/-- A kind that a broadcast carries to this part: STATUS or DESCRIBE (R147). -/
def broadcastAnswered (kind : Byte) : Bool :=
  match kindOf kind with
  | some .status => true
  | some .describe => true
  | _ => false

/-- The disposition of a channel-0 frame under the station in force (R146, R147). -/
def dispositionOf (station : Nat) (m : ManagementFields) : Disposition :=
  if m.isReply then .passed
  else if m.station = Config.broadcastStation then (if broadcastAnswered m.kind then .consumedAndPassed else .passed)
  else if m.station = station then .consumed
  else .passed

/-- A PASSED frame (R127, R139): a line frame goes on unchanged under the counter named, a TAP frame is discarded. -/
def State.passManagement (p : Port) (f : Frame) (c : Counter) (s : State) : State :=
  match oppositeLine p with
  | some l => (s.placeTraffic l f).count p c
  | none => s.count p .tapIdle

/-- The copy of a CONSUMED_AND_PASSED line frame for the opposite line (R127). -/
def State.passOn (p : Port) (f : Frame) (s : State) : State :=
  match oppositeLine p with
  | some l => s.placeTraffic l f
  | none => s

/-- The hand-off of a good channel-0 frame (R127, R139, R146, R147); `c` is the counter of a PASSED line frame. The frame is
counted before its request is dispatched (R143). -/
def State.handOff (p : Port) (f : Frame) (c : Counter) (s : State) : State :=
  let m := managementFields (framePayload f)
  let r : Request := { origin := { port := p, tag := m.tag }, kind := m.kind, params := m.params }
  match dispositionOf s.config.values.station m with
  | .passed => s.passManagement p f c
  | .consumed => (s.count p .mgmtConsumed).dispatch r
  | .consumedAndPassed => ((s.count p .mgmtConsumed).dispatch r).passOn p f

/-! ## Lookup (R126 to R131) -/

/-- The no-route handling of a frame (R129). -/
def State.noRoute (p : Port) (f : Frame) (s : State) : State :=
  match s.config.values.noRoute, oppositeLine p with
  | .deliver, some _ => (s.placeDelivery f).count p .delivered
  | _, _ => s.count p .noRoute

/-- A frame of a routable channel is looked up (R128). -/
def State.lookUp (p : Port) (f : Frame) (s : State) : State :=
  match s.position (frameChannelField f) with
  | none => s.noRoute p f
  | some a => s.requestRead p { frame := f, underRunning := true, failed := 0, addr := a, leftRunning := false } a

/-- A frame taken while the unit is RUNNING (R126). -/
def State.judgeFrame (p : Port) (f : Frame) (s : State) : State :=
  if !checkGood f then s.count p .check
  else if !formatGood f then s.count p .format
  else if frameChannelField f = 0 then s.handOff p f .mgmtPassed
  else s.lookUp p f

/-- A port is a member of an accept set. -/
def PortSet.has (a : PortSet) : Port → Bool
  | .east => a.east
  | .west => a.west
  | .tap => a.tap

/-- A copy of a frame under a route (R134). -/
def copyOf (r : RouteFields) (f : Frame) : Frame :=
  match r.outChannel with
  | some ch => if ch = frameChannelField f then f else rewriteChannel ch f
  | none => f

/-- The line to which an arrival of a port is passed by a route (Table 7-2). -/
def passLine (p : Port) (r : RouteFields) : Option Line :=
  match oppositeLine p with
  | some l => some l
  | none => r.tapSide

/-- One copy to the line the route passes to, counted passed (Table 7-2). -/
def State.passCopy (p : Port) (r : RouteFields) (f : Frame) (s : State) : State :=
  match passLine p r with
  | some l => (s.placeTraffic l (copyOf r f)).count p .passed
  | none => s

/-- One copy to the tap, counted delivered (Table 7-2). -/
def State.deliverCopy (p : Port) (r : RouteFields) (f : Frame) (s : State) : State :=
  (s.placeDelivery (copyOf r f)).count p .delivered

/-- The action of a route (R133, Table 7-2); with `left` the unit left RUNNING while the frame was READING, and no copy is
placed for the tap (R141). -/
def State.applyAction (p : Port) (r : RouteFields) (f : Frame) (left : Bool) (s : State) : State :=
  match r.action with
  | .pass => s.passCopy p r f
  | .deliver =>
    match p with
    | .tap => s.count p .noDeliverToSelf
    | _ => if left then s.repeatFrame p f else s.deliverCopy p r f
  | .passAndDeliver =>
    match p with
    | .tap => s.passCopy p r f
    | _ => if left then s.passCopy p r f else (s.passCopy p r f).deliverCopy p r f
  | .discard => s.count p .discarded

/-- A failed check is handled (R131); `h` counts it already. -/
def State.steer (p : Port) (h : InHand) (s : State) : State :=
  if Config.failedCheckLimit ≤ h.failed then s.count p .stale
  else
    match s.position (frameChannelField h.frame) with
    | none => s.noRoute p h.frame
    | some a => if a = h.addr then s.count p .stale else s.requestRead p h a

/-- A read for a frame in hand has completed with a result (R130, R131, R141); its stage is IDLE and its bank has gone on. -/
def State.frameRead (p : Port) (h : InHand) (res : ReadResult) (s : State) : State :=
  match routeCheck res (frameChannelField h.frame) with
  | some r => if r.accept.has p then s.applyAction p r h.frame h.leftRunning else s.count p .notAccepted
  | none =>
    if h.leftRunning then s.repeatFrame p h.frame else s.steer p { h with failed := h.failed + 1 }

/-! ## Taking heads (R125, R139, R140) -/

/-- A frame handled by the Bypass Path (R139). -/
def State.bypassFrame (p : Port) (f : Frame) (s : State) : State :=
  if frameChannelField f = 0 ∧ checkGood f = true ∧ formatGood f = true then s.handOff p f .bypassed
  else s.repeatFrame p f

/-- A frame carried across while HELD; a TAP arrival is dropped (R140). -/
def State.carryAcross (p : Port) (f : Frame) (s : State) : State :=
  match oppositeLine p with
  | some l => s.carryTraffic l f
  | none => s

/-- An idle lookup stage takes the head of its ingress FIFO and handles it under the operating state (R125). -/
def State.takeHead (p : Port) (s : State) : State :=
  match s.ingress.get p with
  | [] => s
  | f :: rest =>
    let s1 : State := { s with ingress := s.ingress.set p rest }
    match s.opState with
    | .noPower => s1
    | .held => s1.carryAcross p f
    | .mounting => s1.bypassFrame p f
    | .bypass => s1.bypassFrame p f
    | .running => s1.judgeFrame p f

/-- The lookup stage of a port is IDLE and its ingress FIFO holds a frame (R125). -/
def State.takes (s : State) (p : Port) : Bool :=
  decide (s.stages.get p = .idle) && !(s.ingress.get p).isEmpty

/-- The next lookup stage to take a head; of several the first of EAST, WEST and TAP (log 11). -/
def State.nextTaker (s : State) : Option Port :=
  [Port.east, Port.west, Port.tap].find? s.takes

/-- Idle lookup stages take heads until none can; every round takes a frame from an ingress FIFO. A suspension reason that
has appeared is taken up before the next head is taken (R72, R73). -/
def State.takeHeads : Nat → State → State
  | 0, s => s
  | n + 1, s =>
    match s.nextTaker with
    | some p => State.takeHeads n (s.examineReasons.takeHead p)
    | none => s

/-- The number of frames in the ingress FIFOs. -/
def State.ingressTotal (s : State) : Nat :=
  s.ingress.east.length + s.ingress.west.length + s.ingress.tap.length

/-- The end of an event: the lookup stages left IDLE take their heads (R125), the reasons of an erase being examined before
each and after the last, and its resume condition after the last (R72, R73, R75; log 10). -/
def State.settle (s : State) : State :=
  (State.takeHeads s.ingressTotal s).examineErase

end Sys2Proof.Machine
end

