-- ==== Sys2Proof/Machine/EraseEvents.lean ====
section
/-! DEFINITION. The events of an erase: completion, suspend and stop completions, the erase timeout and the run interval
timer of a route erase, the rotation erase of a configuration segment (chapters 4 and 9). -/

namespace Sys2Proof.Machine

/-- The erase record with the active time since the erase last began to run added (R69). -/
def EraseRec.ran (e : EraseRec) (us : Nat) : EraseRec :=
  { e with activeUs := e.activeUs + us }

/-- A completion that finds a mark held ends the erase by the mark taken first (R73). -/
def State.endHeld (cause : StopCause) (e : EraseRec) (s : State) : State :=
  ((s.eraseStopped cause e).engineNext).settle

/-- The erase completion of the erase in progress, by its step (R70, R73); after a stop request it is not taken as a
completion (R69; log 23). -/
def State.eraseCompletes (e : EraseRec) (us : Nat) (s : State) : State :=
  match e.step, e.held with
  | .running, _ => (s.eraseCompleted (e.ran us)).settle
  | .waiting, _ => (s.eraseCompleted (e.ran us)).settle
  | .suspending, [] => (s.eraseCompleted (e.ran us)).settle
  | .suspending, c :: _ => s.endHeld c (e.ran us)
  | _, _ => s

/-- ERASE_COMPLETION (R70, R73). -/
def execEraseCompletion (ranUs : Nat) (s : State) : Host.Outcome State Fault Refusal :=
  match s.op with
  | .erase e => .next (s.eraseCompletes e ranUs)
  | _ => .next s

/-- The suspend completion of the erase in progress (R73, R109); a held mark ends the erase (log 28). -/
def State.suspendCompletes (e : EraseRec) (us : Nat) (s : State) : State :=
  match e.step, e.held with
  | .suspending, [] => ((s.eraseSuspends (e.ran us)).engineNext).settle
  | .suspending, c :: _ => s.endHeld c { e.ran us with suspensions := e.suspensions + 1 }
  | _, _ => s

/-- SUSPEND_COMPLETION (R73). -/
def execSuspendCompletion (ranUs : Nat) (s : State) : Host.Outcome State Fault Refusal :=
  match s.op with
  | .erase e => .next (s.suspendCompletes e ranUs)
  | _ => .next s

/-- STOP_COMPLETION (R69, R77): the erase ends by the cause of its stop. -/
def execStopCompletion (ranUs : Nat) (s : State) : Host.Outcome State Fault Refusal :=
  match s.op with
  | .erase e =>
    match e.step with
    | .stopping cause => .next (s.endHeld cause (e.ran ranUs))
    | _ => .next s
  | _ => .next s

/-- ERASE_TIMEOUT_EXPIRY (R69, R73): a stop is requested, or the expiry is held while SUSPENDING. -/
def execEraseTimeoutExpiry (s : State) : Host.Outcome State Fault Refusal :=
  match s.op with
  | .erase e =>
    match e.step with
    | .running => .next { s with op := .erase { e with step := .stopping .timeout, runTimer := false } }
    | .waiting => .next { s with op := .erase { e with step := .stopping .timeout, runTimer := false } }
    | .suspending => .next { s with op := .erase (e.hold .timeout) }
    | _ => .next s
  | _ => .next s

/-- The run interval timer of an erase has ended (R73): in WAITING the engine looks again. -/
def State.intervalEnds (e : EraseRec) (s : State) : State :=
  let e1 := { e with runTimer := false }
  let s1 : State := { s with op := .erase e1 }
  match e.step with
  | .waiting => s1.lookAgain e1
  | _ => s1

/-- RUN_INTERVAL_TIMER_EXPIRY (R73). -/
def execRunIntervalTimerExpiry (s : State) : Host.Outcome State Fault Refusal :=
  match s.op with
  | .erase e => .next (if e.runTimer then s.intervalEnds e else s)
  | _ => .next s

/-- The rotation erase in progress at a step: the configuration write and its target (R170). -/
def State.rotationAt (s : State) (step : ConfigStep) : Option (ConfigWrite × CfgSeg) :=
  match s.op with
  | .configWrite w => if w.step = step then w.target.map (fun g => (w, g)) else none
  | _ => none

/-- CONFIG_ERASE_COMPLETION (R170). -/
def execConfigEraseCompletion (s : State) : Host.Outcome State Fault Refusal :=
  match s.rotationAt .erasing with
  | some (w, g) => .next (s.configErased w g)
  | none => .next s

/-- CONFIG_ERASE_TIMEOUT (R171): a stop is requested. -/
def execConfigEraseTimeout (s : State) : Host.Outcome State Fault Refusal :=
  match s.rotationAt .erasing with
  | some (w, _) => .next { s with op := .configWrite { w with step := .stopping } }
  | none => .next s

/-- CONFIG_STOP_COMPLETION (R171). -/
def execConfigStopCompletion (s : State) : Host.Outcome State Fault Refusal :=
  match s.rotationAt .stopping with
  | some (w, g) => .next (((s.configStopped w g).engineNext).settle)
  | none => .next s

end Sys2Proof.Machine
end

