-- ==== Sys2Proof/Machine/PowerEvents.lean ====
section
/-! DEFINITION. POWER_ON, LOSS_OF_POWER, RESET_ASSERTION, RESET_RELEASE, GUARD_RELEASE_CHANGE (chapters 9 and 10). -/

namespace Sys2Proof.Machine

/-- The unit right after the supply reaches its working level (R181): HELD when RESET is asserted, else the mount begins. -/
def State.powerUp (s : State) : State :=
  if s.resetAsserted then s.volatileReset .held else (s.volatileReset .mounting).beginMount

/-- POWER_ON (R181; log 4). -/
def execPowerOn (s : State) : Host.Outcome State Fault Refusal :=
  .next s.powerUp

/-- LOSS_OF_POWER (R181, R22): every piece of volatile state is lost, the store keeps what it then holds. -/
def execLossOfPower (s : State) : Host.Outcome State Fault Refusal :=
  .next (s.volatileReset .noPower)

/-- The unit is supplied and not HELD: an assertion of RESET takes it to HELD (R179). -/
def OpState.resettable : OpState → Bool
  | .noPower => false
  | .held => false
  | .mounting => true
  | .running => true
  | .bypass => true

/-- RESET_ASSERTION (R179): no further effect while HELD; without power only the level of the input changes. -/
def execResetAssertion (s : State) : Host.Outcome State Fault Refusal :=
  let s1 : State := { s with resetAsserted := true }
  .next (if s.opState.resettable then s1.volatileReset .held else s1)

/-- A frame standing in an ingress FIFO at the release of RESET is counted received (R140). -/
def Counters.countReceived (c : Counters) : Nat → Counters
  | 0 => c
  | n + 1 => Counters.countReceived (c.bump .received) n

/-- The frames standing in the ingress FIFOs are counted received at their ports (R140). -/
def State.countStanding (s : State) : State :=
  { s with
    counters :=
      { east := s.counters.east.countReceived s.ingress.east.length
        west := s.counters.west.countReceived s.ingress.west.length
        tap := s.counters.tap.countReceived s.ingress.tap.length } }

/-- RESET_RELEASE (R180): from HELD the unit becomes MOUNTING and the mount begins; the FIFOs are kept. -/
def execResetRelease (s : State) : Host.Outcome State Fault Refusal :=
  let s1 : State := { s with resetAsserted := false }
  .next (if s.opState = .held then (s1.countStanding.beginMount).settle else s1)

/-- GUARD_RELEASE_CHANGE (R177): the level changes and nothing else. -/
def execGuardReleaseChange (asserted : Bool) (s : State) : Host.Outcome State Fault Refusal :=
  .next { s with guardRelease := asserted }

end Sys2Proof.Machine
end

