-- ==== Sys2Proof/Machine/ProgramEvents.lean ====
section
/-! DEFINITION. The completions of programs and PROGRAM_DEADLINE_EXPIRY (chapters 1, 3, 4, 9 and 10). -/

namespace Sys2Proof.Machine

/-- The end of the stamp program of the erase in progress (R71). -/
def State.stampEnds (pass : Bool) (s : State) : State :=
  match s.op with
  | .erase e => s.stampDone pass e
  | _ => s

/-- The end of a program of the configuration write in progress (R170 to R173). -/
def State.configEnds (role : ProgramRole) (pass : Bool) (s : State) : State :=
  match s.op with
  | .configWrite w =>
    match role, w.target, w.slot, w.issue with
    | .configStamp, some g, _, _ => s.configStampDone pass w g
    | .configWrite, _, some a, some n => s.configWriteDone pass w a n
    | .configVoid, _, some a, some n => s.configVoidDone pass w a n
    | _, _, _, _ => s
  | _ => s

/-- What follows the end of a program, by the role it was issued in. -/
def State.afterProgram (role : ProgramRole) (pass : Bool) (s : State) : State :=
  match role with
  | .write => s.writeDone pass
  | .seal => s.sealDone pass
  | .settle => s.settleDone pass
  | .void => s.voidDone pass
  | .stamp => s.stampEnds pass
  | .configStamp => s.configEnds .configStamp pass
  | .configWrite => s.configEnds .configWrite pass
  | .configVoid => s.configEnds .configVoid pass
  | .repair => s.repairDone pass

/-- The program in progress ends (R8, R9, R19): the store and the bank, what the operation does next, and the start rule
when the operation has ended (R109). -/
def State.finishProgram (p : Program) (pass : Bool) (s : State) : State :=
  ((((s.endProgram p pass).afterProgram p.role pass).engineNext)).settle

/-- The completion of a program issued in a role; without such a program in progress it does not arise (R19; log 5). -/
def State.completes (role : ProgramRole) (pass : Bool) (s : State) : State :=
  match s.program with
  | some p => if p.role = role then s.finishProgram p pass else s
  | none => s

/-- PROGRAM_DEADLINE_EXPIRY (R19): the program in progress counts as ended with fail. -/
def execProgramDeadlineExpiry (s : State) : Host.Outcome State Fault Refusal :=
  match s.program with
  | some p => .next (s.finishProgram p false)
  | none => .next s

/-- WRITE_PROGRAM_COMPLETION (R52, R53). -/
def execWriteProgramCompletion (pass : Bool) (s : State) : Host.Outcome State Fault Refusal :=
  .next (s.completes .write pass)

/-- SEAL_PROGRAM_COMPLETION (R54, R55, R26). -/
def execSealProgramCompletion (pass : Bool) (s : State) : Host.Outcome State Fault Refusal :=
  .next (s.completes .seal pass)

/-- SETTLE_PROGRAM_COMPLETION (R56 to R58, R27). -/
def execSettleProgramCompletion (pass : Bool) (s : State) : Host.Outcome State Fault Refusal :=
  .next (s.completes .settle pass)

/-- VOID_PROGRAM_COMPLETION (R59). -/
def execVoidProgramCompletion (pass : Bool) (s : State) : Host.Outcome State Fault Refusal :=
  .next (s.completes .void pass)

/-- STAMP_PROGRAM_COMPLETION (R71). -/
def execStampProgramCompletion (pass : Bool) (s : State) : Host.Outcome State Fault Refusal :=
  .next (s.completes .stamp pass)

/-- CONFIG_STAMP_COMPLETION (R170, R171). -/
def execConfigStampCompletion (pass : Bool) (s : State) : Host.Outcome State Fault Refusal :=
  .next (s.completes .configStamp pass)

/-- CONFIG_WRITE_COMPLETION (R172, R173). -/
def execConfigWriteCompletion (pass : Bool) (s : State) : Host.Outcome State Fault Refusal :=
  .next (s.completes .configWrite pass)

/-- CONFIG_VOID_COMPLETION (R173). -/
def execConfigVoidCompletion (pass : Bool) (s : State) : Host.Outcome State Fault Refusal :=
  .next (s.completes .configVoid pass)

/-- REPAIR_PROGRAM_COMPLETION (R192, R193). -/
def execRepairProgramCompletion (pass : Bool) (s : State) : Host.Outcome State Fault Refusal :=
  .next (s.completes .repair pass)

end Sys2Proof.Machine
end

