-- ==== Sys2Proof/Machine/RequestCommands.lean ====
section
/-! DEFINITION. The management requests as commands: the dispatch of each request kind on a port (chapter 8; log 8). -/

namespace Sys2Proof.Machine

/-- A request dispatched on a port (R149 to R154); none is handed to the Responder while the unit is HELD or without power
(R145). -/
def State.receive (k : ReqKind) (port : Port) (tag : Byte) (params : List Byte) (s : State) : State :=
  if s.opState.linkUp then
    (s.dispatch { origin := { port := port, tag := tag }, kind := k.code, params := params }).settle
  else s

/-- STATUS (R159). -/
def execStatus (port : Port) (tag : Byte) (params : List Byte) (s : State) : Host.Outcome State Fault Refusal :=
  .next (s.receive .status port tag params)

/-- DESCRIBE (R161). -/
def execDescribe (port : Port) (tag : Byte) (params : List Byte) (s : State) : Host.Outcome State Fault Refusal :=
  .next (s.receive .describe port tag params)

/-- READ_SLOT (R103). -/
def execReadSlot (port : Port) (tag : Byte) (params : List Byte) (s : State) : Host.Outcome State Fault Refusal :=
  .next (s.receive .readSlot port tag params)

/-- READ_INDEX (R31, R32). -/
def execReadIndex (port : Port) (tag : Byte) (params : List Byte) (s : State) : Host.Outcome State Fault Refusal :=
  .next (s.receive .readIndex port tag params)

/-- READ_COUNTERS (R143). -/
def execReadCounters (port : Port) (tag : Byte) (params : List Byte) (s : State) : Host.Outcome State Fault Refusal :=
  .next (s.receive .readCounters port tag params)

/-- READ_COUNTERS_WITH_CLEAR (R143): the clear flag is 0x01. -/
def execReadCountersWithClear (port : Port) (tag : Byte) (named : Byte) (s : State) : Host.Outcome State Fault Refusal :=
  .next (s.receive .readCounters port tag [named, 1])

/-- READ_FAULTS (R121). -/
def execReadFaults (port : Port) (tag : Byte) (params : List Byte) (s : State) : Host.Outcome State Fault Refusal :=
  .next (s.receive .readFaults port tag params)

/-- READ_CONFIG (R165). -/
def execReadConfig (port : Port) (tag : Byte) (params : List Byte) (s : State) : Host.Outcome State Fault Refusal :=
  .next (s.receive .readConfig port tag params)

/-- CLEAR_FAULTS (R122). -/
def execClearFaults (port : Port) (tag : Byte) (params : List Byte) (s : State) : Host.Outcome State Fault Refusal :=
  .next (s.receive .clearFaults port tag params)

/-- STAGE (R36, R37). -/
def execStage (port : Port) (tag : Byte) (params : List Byte) (s : State) : Host.Outcome State Fault Refusal :=
  .next (s.receive .stage port tag params)

/-- UNSTAGE (R38). -/
def execUnstage (port : Port) (tag : Byte) (params : List Byte) (s : State) : Host.Outcome State Fault Refusal :=
  .next (s.receive .unstage port tag params)

/-- ABANDON (R114 to R116). -/
def execAbandon (port : Port) (tag : Byte) (params : List Byte) (s : State) : Host.Outcome State Fault Refusal :=
  .next (s.receive .abandon port tag params)

/-- SET_MODE_RUN (R183): the mode RUN. -/
def execSetModeRun (port : Port) (tag : Byte) (s : State) : Host.Outcome State Fault Refusal :=
  .next (s.receive .setMode port tag [1])

/-- SET_MODE_BYPASS (R183, R141): the mode BYPASS. -/
def execSetModeBypass (port : Port) (tag : Byte) (s : State) : Host.Outcome State Fault Refusal :=
  .next (s.receive .setMode port tag [2])

/-- COMMIT (R42, R43). -/
def execCommit (port : Port) (tag : Byte) (params : List Byte) (s : State) : Host.Outcome State Fault Refusal :=
  .next (s.receive .commit port tag params)

/-- ERASE (R65). -/
def execErase (port : Port) (tag : Byte) (params : List Byte) (s : State) : Host.Outcome State Fault Refusal :=
  .next (s.receive .erase port tag params)

/-- RECLAIM (R80). -/
def execReclaim (port : Port) (tag : Byte) (params : List Byte) (s : State) : Host.Outcome State Fault Refusal :=
  .next (s.receive .reclaim port tag params)

/-- SET_CONFIG (R166). -/
def execSetConfig (port : Port) (tag : Byte) (params : List Byte) (s : State) : Host.Outcome State Fault Refusal :=
  .next (s.receive .setConfig port tag params)

/-- RESTART (R117). -/
def execRestart (port : Port) (tag : Byte) (params : List Byte) (s : State) : Host.Outcome State Fault Refusal :=
  .next (s.receive .restart port tag params)

end Sys2Proof.Machine
end

