-- ==== Sys2Proof/Machine/TimerEvents.lean ====
section
/-! DEFINITION. IDLE_TIMER_EXPIRY, RESTART_DRAIN_EXPIRY and the read completions of the mount (chapters 3, 6 and 10). -/

namespace Sys2Proof.Machine

/-- The STAGE_EXPIRED record: the owner and the tag of the last accepted STAGE (R40). -/
def Staging.expiredRecord (b : Staging) : FaultRecord :=
  { kind := .stageExpired, seg := none, slot := none, channel := none, issue := none,
    origin :=
      match b.owner, b.tag with
      | some p, some t => some { port := p, tag := t }
      | _, _ => none }

/-- IDLE_TIMER_EXPIRY (R40): the buffer is emptied and STAGE_EXPIRED recorded; a stopped timer has no expiry (R41). -/
def execIdleTimerExpiry (s : State) : Host.Outcome State Fault Refusal :=
  if s.staging.timer then .next (({ s with staging := Staging.reset } : State).addFault s.staging.expiredRecord)
  else .next s

/-- RESTART_DRAIN_EXPIRY (R118, R182). -/
def execRestartDrainExpiry (s : State) : Host.Outcome State Fault Refusal :=
  match s.op with
  | .restart _ => .next s.internalReset
  | _ => .next s

/-- The mount in a phase whose claimed read is in flight (R185, R186). -/
def State.mountReading (s : State) (phase : MountPhase) : Option (Mount × ReadTarget) :=
  match s.op with
  | .mount m =>
    let t : ReadTarget :=
      match m.phase with
      | .headerScan => .header m.headers.length
      | _ => .slot m.scan
    if m.phase = phase ∧ s.engineReads t = true then some (m, t) else none
  | _ => none

/-- HEADER_READ_COMPLETION (R185). -/
def execHeaderReadCompletion (marginLost : Bool) (s : State) : Host.Outcome State Fault Refusal :=
  match s.mountReading .headerScan with
  | some (m, t) =>
    .next (((s.engineReadDone t).headerScanned m (readHeader (s.store.header m.headers.length) marginLost)).settle)
  | none => .next s

/-- SLOT_SCAN_READ_COMPLETION (R186). -/
def execSlotScanReadCompletion (marginLost : Bool) (s : State) : Host.Outcome State Fault Refusal :=
  match s.mountReading .slotScan with
  | some (m, t) => .next (((s.engineReadDone t).slotScanned (m.recorded s marginLost)).settle)
  | none => .next s

end Sys2Proof.Machine
end

