-- ==== Sys2Proof/Machine/TrafficEvents.lean ====
section
/-! DEFINITION. FRAME_ARRIVAL, the completions of reads for lookup stages and READ SLOT, HOLD_TIMER_EXPIRY and the
transmission completions (chapters 5 and 7). -/

namespace Sys2Proof.Machine

/-- A frame appended at the tail of the ingress FIFO of a port (R124). -/
def State.appendIngress (p : Port) (f : Frame) (s : State) : State :=
  { s with ingress := s.ingress.set p (s.ingress.get p ++ [f]) }

/-- The ingress FIFO of a port holds fewer than 16 frames (R124). -/
def State.ingressRoom (s : State) (p : Port) : Bool :=
  decide ((s.ingress.get p).length < Config.ingressCapacity)

/-- An arrival outside HELD (R124): counted received, then appended or discarded as INGRESS_FULL. -/
def State.arrive (p : Port) (f : Frame) (s : State) : State :=
  let s1 := s.count p .received
  if s.ingressRoom p then s1.appendIngress p f else s1.count p .ingressFull

/-- An arrival while HELD (R140): a line arrival is appended or dropped, a TAP arrival is dropped; nothing is counted. -/
def State.arriveHeld (p : Port) (f : Frame) (s : State) : State :=
  match oppositeLine p with
  | some _ => if s.ingressRoom p then s.appendIngress p f else s
  | none => s

/-- FRAME_ARRIVAL (R123, R124, R140). -/
def execFrameArrival (p : Port) (f : Frame) (s : State) : Host.Outcome State Fault Refusal :=
  match s.opState with
  | .noPower => .next s
  | .held => .next (s.arriveHeld p f).settle
  | .mounting => .next (s.arrive p f).settle
  | .running => .next (s.arrive p f).settle
  | .bypass => .next (s.arrive p f).settle

/-- The read in flight for the frame that a lookup stage is READING (R93, R125). -/
def State.readInHand (s : State) (p : Port) : Option InHand :=
  match s.stages.get p with
  | .reading h =>
    match (s.bank (bankOf h.addr.seg)).inFlight with
    | some r => if r.party = .lookup p then some h else none
    | none => none
  | _ => none

/-- LOOKUP_READ_COMPLETION (R130): the bank goes on and the frame in hand is judged by the result. -/
def execLookupReadCompletion (p : Port) (marginLost : Bool) (s : State) : Host.Outcome State Fault Refusal :=
  match s.readInHand p with
  | some h =>
    .next ((((s.setStage p .idle).readDone (bankOf h.addr.seg)).frameRead p h (s.readSlotResult h.addr marginLost)).settle)
  | none => .next s

/-- READ_SLOT_COMPLETION (R104): the DONE reply with the read result. -/
def execReadSlotCompletion (b : Bank) (marginLost : Bool) (s : State) : Host.Outcome State Fault Refusal :=
  match (s.bank b).inFlight with
  | some ⟨.slot a, .readSlot o, _⟩ =>
    .next (((s.readDone b).replyRead o ReqKind.readSlot.code .done
      (byte1 a.seg ++ byte1 a.slot ++ readResultBytes (s.readSlotResult a marginLost))).settle)
  | _ => .next s

/-- The source of a relocation whose read is in flight: the reclaim, the source, those behind it, the images formed (R82). -/
def State.sourceInFlight (s : State) : Option (ReclaimRec × Source × List Source × List Entry) :=
  match s.op with
  | .reclaim r =>
    match r.stage with
    | .reading (x :: rest) images =>
      if s.engineReads (.slot { seg := r.seg, slot := x.slot }) then some (r, x, rest, images) else none
    | _ => none
  | _ => none

/-- SOURCE_READ_COMPLETION (R82, R83, R87). -/
def execSourceReadCompletion (marginLost : Bool) (s : State) : Host.Outcome State Fault Refusal :=
  match s.sourceInFlight with
  | some (r, x, rest, images) =>
    let a : SlotAddr := { seg := r.seg, slot := x.slot }
    .next ((((s.engineReadDone (.slot a)).sourceRead r x rest images (s.readSlotResult a marginLost)).engineNext).settle)
  | none => .next s

/-- The frame of a lookup stage whose read is queued, its hold timer running (R100). -/
def State.heldInQueue (s : State) (p : Port) : Option InHand :=
  match s.stages.get p with
  | .waitBank h => if (s.bank (bankOf h.addr.seg)).queue.any (fun q => q.stage = p) then some h else none
  | _ => none

/-- HOLD_TIMER_EXPIRY (R101, R132): the read is withdrawn and the frame discarded as HOLD_EXPIRED. -/
def execHoldTimerExpiry (p : Port) (s : State) : Host.Outcome State Fault Refusal :=
  match s.heldInQueue p with
  | some h => .next ((((s.setStage p .idle).withdrawRead p (bankOf h.addr.seg)).count p .holdExpired).settle)
  | none => .next s

/-- A reply that RESTART awaits has left (R118); any other frame changes nothing more. -/
def State.sent (o : Outgoing) (s : State) : State :=
  if o.awaited then s.awaitedSent else s

/-- LINE_TRANSMISSION_COMPLETION (R136, R118). -/
def execLineTransmissionCompletion (l : Line) (s : State) : Host.Outcome State Fault Refusal :=
  match s.lineTx.get l with
  | some o => .next ((({ s with lineTx := s.lineTx.set l none } : State).kickLine l).sent o)
  | none => .next s

/-- TAP_TRANSMISSION_COMPLETION (R137, R118). -/
def execTapTransmissionCompletion (s : State) : Host.Outcome State Fault Refusal :=
  match s.tapTx with
  | some o => .next ((({ s with tapTx := none } : State).kickTap).sent o)
  | none => .next s

end Sys2Proof.Machine
end

