-- ==== Sys2Proof/Machine/Dispatch.lean ====
section
/-! DEFINITION. The meaning of every command, arm by arm. -/

namespace Sys2Proof.Machine

open Sys2Proof

/-- The effect of a command on everything but the queue of waiting commands. -/
def exec (i : Instr) (s : State) : Host.Outcome State Fault Refusal :=
  match i with
  | .powerOn => Sys2Proof.Machine.execPowerOn s
  | .lossOfPower => Sys2Proof.Machine.execLossOfPower s
  | .resetAssertion => Sys2Proof.Machine.execResetAssertion s
  | .resetRelease => Sys2Proof.Machine.execResetRelease s
  | .guardReleaseChange asserted => Sys2Proof.Machine.execGuardReleaseChange asserted s
  | .frameArrival port frame => Sys2Proof.Machine.execFrameArrival port frame s
  | .lookupReadCompletion port marginLost => Sys2Proof.Machine.execLookupReadCompletion port marginLost s
  | .readSlotCompletion bank marginLost => Sys2Proof.Machine.execReadSlotCompletion bank marginLost s
  | .sourceReadCompletion marginLost => Sys2Proof.Machine.execSourceReadCompletion marginLost s
  | .holdTimerExpiry port => Sys2Proof.Machine.execHoldTimerExpiry port s
  | .lineTransmissionCompletion line => Sys2Proof.Machine.execLineTransmissionCompletion line s
  | .tapTransmissionCompletion => Sys2Proof.Machine.execTapTransmissionCompletion s
  | .programDeadlineExpiry => Sys2Proof.Machine.execProgramDeadlineExpiry s
  | .writeProgramCompletion pass => Sys2Proof.Machine.execWriteProgramCompletion pass s
  | .sealProgramCompletion pass => Sys2Proof.Machine.execSealProgramCompletion pass s
  | .settleProgramCompletion pass => Sys2Proof.Machine.execSettleProgramCompletion pass s
  | .voidProgramCompletion pass => Sys2Proof.Machine.execVoidProgramCompletion pass s
  | .eraseCompletion ranUs => Sys2Proof.Machine.execEraseCompletion ranUs s
  | .stampProgramCompletion pass => Sys2Proof.Machine.execStampProgramCompletion pass s
  | .suspendCompletion ranUs => Sys2Proof.Machine.execSuspendCompletion ranUs s
  | .stopCompletion ranUs => Sys2Proof.Machine.execStopCompletion ranUs s
  | .eraseTimeoutExpiry => Sys2Proof.Machine.execEraseTimeoutExpiry s
  | .runIntervalTimerExpiry => Sys2Proof.Machine.execRunIntervalTimerExpiry s
  | .idleTimerExpiry => Sys2Proof.Machine.execIdleTimerExpiry s
  | .configEraseCompletion => Sys2Proof.Machine.execConfigEraseCompletion s
  | .configStampCompletion pass => Sys2Proof.Machine.execConfigStampCompletion pass s
  | .configEraseTimeout => Sys2Proof.Machine.execConfigEraseTimeout s
  | .configStopCompletion => Sys2Proof.Machine.execConfigStopCompletion s
  | .configWriteCompletion pass => Sys2Proof.Machine.execConfigWriteCompletion pass s
  | .configVoidCompletion pass => Sys2Proof.Machine.execConfigVoidCompletion pass s
  | .headerReadCompletion marginLost => Sys2Proof.Machine.execHeaderReadCompletion marginLost s
  | .slotScanReadCompletion marginLost => Sys2Proof.Machine.execSlotScanReadCompletion marginLost s
  | .repairProgramCompletion pass => Sys2Proof.Machine.execRepairProgramCompletion pass s
  | .restartDrainExpiry => Sys2Proof.Machine.execRestartDrainExpiry s
  | .status port tag params => Sys2Proof.Machine.execStatus port tag params s
  | .describe port tag params => Sys2Proof.Machine.execDescribe port tag params s
  | .readSlot port tag params => Sys2Proof.Machine.execReadSlot port tag params s
  | .readIndex port tag params => Sys2Proof.Machine.execReadIndex port tag params s
  | .readCounters port tag params => Sys2Proof.Machine.execReadCounters port tag params s
  | .readCountersWithClear port tag named => Sys2Proof.Machine.execReadCountersWithClear port tag named s
  | .readFaults port tag params => Sys2Proof.Machine.execReadFaults port tag params s
  | .readConfig port tag params => Sys2Proof.Machine.execReadConfig port tag params s
  | .clearFaults port tag params => Sys2Proof.Machine.execClearFaults port tag params s
  | .stage port tag params => Sys2Proof.Machine.execStage port tag params s
  | .unstage port tag params => Sys2Proof.Machine.execUnstage port tag params s
  | .abandon port tag params => Sys2Proof.Machine.execAbandon port tag params s
  | .setModeRun port tag => Sys2Proof.Machine.execSetModeRun port tag s
  | .setModeBypass port tag => Sys2Proof.Machine.execSetModeBypass port tag s
  | .commit port tag params => Sys2Proof.Machine.execCommit port tag params s
  | .erase port tag params => Sys2Proof.Machine.execErase port tag params s
  | .reclaim port tag params => Sys2Proof.Machine.execReclaim port tag params s
  | .setConfig port tag params => Sys2Proof.Machine.execSetConfig port tag params s
  | .restart port tag params => Sys2Proof.Machine.execRestart port tag params s

end Sys2Proof.Machine
end

