-- ==== Sys2Proof/Machine/Step.lean ====
section
/-! DEFINITION. One step: the command at the front of the queue, or an idle step. -/

namespace Sys2Proof.Machine

/-- One step takes the command at the front of the queue and runs it on the state with the queue's rest; with no command
waiting the block idles (log 6). -/
def step (s : State) : Host.Outcome State Fault Refusal :=
  match s.pending with
  | c :: rest => exec c { s with pending := rest }
  | [] => .next s

/-- The state with the command that a word spells put at the front of its queue; no word of the table spells one (log 21). -/
def State.withFetchWord (s : State) (nbits w : Nat) : State :=
  match decodeTableWord nbits w with
  | some c => { s with pending := c :: s.pending }
  | none => s

end Sys2Proof.Machine
end

