-- ==== Sys2Proof/Safety.lean ====
section
/-! DEFINITION. The predicates in which the statements speak: canonical form, capacities, the Staging Buffer's form, what
holds between two commands, volatile state at its reset values, and the working invariant. -/

namespace Sys2Proof.Machine

/-- The store, the Channel Index and the segment values stand in their canonical forms. -/
def State.canonical (s : State) : Bool :=
  s.store.wf && tableWf none s.index && tableWf SegVol.noValue s.segs

/-- Every counter of a block lies in its range (R142). -/
def Counters.inRange (c : Counters) : Bool :=
  c.toList.all (fun n => decide (n ≤ Config.counterMax))

/-- The ingress, traffic, reply and delivery FIFOs, the Request Queue, the Fault List and its overflow count, the Staging Buffer and
the port counters lie within their capacities (R34, R105, R119, R124, R135, R137, R142). -/
def State.withinCapacity (s : State) : Bool :=
  decide (s.ingress.east.length ≤ Config.ingressCapacity) && decide (s.ingress.west.length ≤ Config.ingressCapacity) &&
    decide (s.ingress.tap.length ≤ Config.ingressCapacity) &&
    decide (s.traffic.east.length ≤ Config.trafficCapacity) && decide (s.traffic.west.length ≤ Config.trafficCapacity) &&
    decide (s.replies.east.length ≤ Config.replyCapacity) && decide (s.replies.west.length ≤ Config.replyCapacity) &&
    decide (s.delivery.length ≤ Config.deliveryCapacity) && decide (s.queue.length ≤ Config.queueCapacity) &&
    decide (s.faults.length ≤ Config.faultCapacity) && decide (s.overflow ≤ Config.overflowMax) &&
    decide (s.staging.entries.length ≤ Config.stagingCapacity) &&
    s.counters.east.inRange && s.counters.west.inRange && s.counters.tap.inRange

/-- The channels of the entries are distinct. -/
def distinctChannels : List Entry → Bool
  | [] => true
  | e :: es => es.all (fun x => decide (x.channel ≠ e.channel)) && distinctChannels es

/-- The Staging Buffer has an owner, a tag and a running timer exactly when it holds an entry, and no two entries for one
channel (R34, R39). -/
def Staging.consistent (b : Staging) : Bool :=
  (b.owner.isSome == !b.entries.isEmpty) && (b.tag.isSome == !b.entries.isEmpty) && (b.timer == !b.entries.isEmpty) &&
    distinctChannels b.entries

/-- At most one route segment is OPEN (R14). -/
def State.atMostOneOpen (s : State) : Bool :=
  (List.range Config.routeSegments).all (fun g => !s.segIs g .opened || decide (s.openSeg = some g))

/-- The route erase in progress: the current operation's, else that of the suspended-erase record (R107, R108). -/
def State.eraseNow (s : State) : Option EraseRec :=
  match s.op with
  | .erase e => some e
  | _ => s.suspended

/-- At most one configuration segment is OPEN (R163). -/
def State.atMostOneOpenCfg (s : State) : Bool :=
  !(s.segIs Config.segCA .opened && s.segIs Config.segCB .opened)

/-- A route segment is ERASING only while its erase is in progress, so at most one is (R14); the suspended-erase record is present
only while a COMMIT or CONFIG_WRITE is current (R108). -/
def State.oneErase (s : State) : Bool :=
  (List.range Config.routeSegments).all (fun g => !s.segIs g .erasing || decide (s.eraseNow.map EraseRec.seg = some g)) &&
    match s.op with
    | .commit _ => true
    | .configWrite _ => true
    | _ => s.suspended.isNone

/-- The port and tag of every queued and running request: those of the Request Queue, of the current operation and of the
suspended-erase record (R105, R107, R108). -/
def State.origins (s : State) : List Origin :=
  s.queue.map QueuedRequest.origin ++ s.op.origin?.toList ++ (s.suspended.map EraseRec.origin).toList

/-- No port and tag appears twice among the queued and running requests (R105). -/
def State.originsDistinct (s : State) : Bool :=
  decide s.origins.Nodup

/-- Contents that a slot may show after others with no erase between (R6): a record's state moves forward and the rest of it
stands; a BLANK slot is written; any slot becomes VOID, or indeterminate by a failed or cut-short program or erase. -/
def Slot.forward (old new : Slot) : Bool :=
  match old, new with
  | _, .void => true
  | _, .indeterminate => true
  | .blank, _ => true
  | .written r, .written x =>
    decide (x.issue = r.issue) && decide (x.content = r.content) &&
      match r.state, x.state with
      | .pending, _ => true
      | .live, .live => true
      | .live, .retired => true
      | .retired, .retired => true
      | _, _ => false
  | _, _ => false

/-- The slot at an address holds a PENDING or LIVE ROUTE of a channel, of a batch whose seal is LIVE in the same segment (R24). -/
def Store.indexable (m : Store) (channel : Nat) (a : SlotAddr) : Bool :=
  decide (a.seg < Config.routeSegments) && decide (a.slot < Config.slotsPerSegment) &&
    match m.slot a with
    | .written ⟨st, issue, .entry e⟩ =>
      decide (st ≠ .retired) && decide (e.channel = channel) && e.isRoute && sealedBy m.slots (slotKey a) issue
    | _ => false

/-- Every index position that is not none names such a slot (R24). -/
def State.indexGood (s : State) : Prop :=
  ∀ (channel : Nat) (a : SlotAddr), s.position channel = some a → s.store.indexable channel a = true

/-- No lookup stage is IDLE with a frame waiting in its ingress FIFO (R125): what holds between two commands. -/
def State.drained (s : State) : Bool :=
  s.nextTaker.isNone

/-- The suspension reasons and the resume condition of the erase have been examined and taken up (R72, R73, R75; log 10): what holds
between two commands. -/
def State.examined (s : State) : Bool :=
  decide (s.examineErase = s)

/-- An idle transmitter has nothing to send (R136, R137): what holds between two commands. -/
def State.sendersBusy (s : State) : Bool :=
  (s.lineTx.east.isSome || (s.replies.east.isEmpty && s.traffic.east.isEmpty)) &&
    (s.lineTx.west.isSome || (s.replies.west.isEmpty && s.traffic.west.isEmpty)) &&
    (s.tapTx.isSome || s.delivery.isEmpty)

/-- Every piece of volatile state that the mount and the engine use stands at its reset value (R179), but for the
operating state. -/
structure State.AtReset (s : State) : Prop where
  program : s.program = none
  banks : s.banks = State.reset.banks
  cfgBank : s.cfgBank = CfgBank.reset
  index : s.index = []
  staging : s.staging = Staging.reset
  queue : s.queue = []
  op : s.op = .idle
  suspended : s.suspended = none
  issue : s.issue = none
  faults : s.faults = []
  overflow : s.overflow = 0
  segs : s.segs = []
  ingress : s.ingress = State.reset.ingress
  stages : s.stages = State.reset.stages
  counters : s.counters = State.reset.counters
  traffic : s.traffic = State.reset.traffic
  replies : s.replies = State.reset.replies
  lineTx : s.lineTx = State.reset.lineTx
  delivery : s.delivery = []
  tapTx : s.tapTx = none
  memory : s.memory = State.reset.memory
  config : s.config = InForce.reset

/-- The unit stands at the event at which a mount begins (R180, R182, R184): MOUNTING, the current operation MOUNT in HEADER SCAN,
the read of header 0 in flight in bank 0, and everything else volatile at its reset value. -/
structure State.MountBegun (s : State) : Prop where
  opState : s.opState = .mounting
  op : s.op = .mount Mount.start
  banks : s.banks =
    { State.reset.banks with b0 := { BankUnit.reset with inFlight := some ⟨.header 0, .engine, false⟩ } }
  rest : ({ s with op := .idle, banks := State.reset.banks } : State).AtReset

/-- Two states whose counters, egress FIFOs and transmitters are the same. -/
structure SameEgress (s t : State) : Prop where
  counters : t.counters = s.counters
  traffic : t.traffic = s.traffic
  replies : t.replies = s.replies
  lineTx : t.lineTx = s.lineTx
  delivery : t.delivery = s.delivery
  tapTx : t.tapTx = s.tapTx

/-- Two states that agree in everything a frame or a read leaves alone: the store, the index, the Staging Buffer, the Request
Queue, the issue counter, the Fault List, the segment values, the reply memories, the configuration in force, the operating
state, the inputs and the waiting commands. -/
structure SameKept (s t : State) : Prop where
  store : t.store = s.store
  index : t.index = s.index
  staging : t.staging = s.staging
  queue : t.queue = s.queue
  issue : t.issue = s.issue
  faults : t.faults = s.faults
  overflow : t.overflow = s.overflow
  segs : t.segs = s.segs
  memory : t.memory = s.memory
  config : t.config = s.config
  opState : t.opState = s.opState
  resetAsserted : t.resetAsserted = s.resetAsserted
  guardRelease : t.guardRelease = s.guardRelease
  pending : t.pending = s.pending

/-- Every slot but one of the route store reads as before. -/
def Store.SameButSlot (m n : Store) (a : SlotAddr) : Prop :=
  n.cfgSlots = m.cfgSlots ∧ n.headers = m.headers ∧
    ∀ x : SlotAddr, x.slot < Config.slotsPerSegment → x ≠ a → n.slot x = m.slot x

/-- Every slot outside one route segment, every header but its own and every configuration slot read as before. -/
def Store.SameOutsideSegment (m n : Store) (g : Nat) : Prop :=
  n.cfgSlots = m.cfgSlots ∧ (∀ x : Nat, x ≠ g → n.header x = m.header x) ∧
    ∀ x : SlotAddr, x.slot < Config.slotsPerSegment → x.seg ≠ g → n.slot x = m.slot x

/-- The completion command that ends a program issued in a role. -/
def completionOf (role : ProgramRole) (pass : Bool) : Instr :=
  match role with
  | .write => .writeProgramCompletion pass
  | .seal => .sealProgramCompletion pass
  | .settle => .settleProgramCompletion pass
  | .void => .voidProgramCompletion pass
  | .stamp => .stampProgramCompletion pass
  | .configStamp => .configStampCompletion pass
  | .configWrite => .configWriteCompletion pass
  | .configVoid => .configVoidCompletion pass
  | .repair => .repairProgramCompletion pass

/-- The request that a command stands for: its kind, its port and tag, its parameters. -/
def requestOf : Instr → Option (ReqKind × Origin × List Byte)
  | .status p t ps => some (.status, ⟨p, t⟩, ps)
  | .describe p t ps => some (.describe, ⟨p, t⟩, ps)
  | .readSlot p t ps => some (.readSlot, ⟨p, t⟩, ps)
  | .readIndex p t ps => some (.readIndex, ⟨p, t⟩, ps)
  | .readCounters p t ps => some (.readCounters, ⟨p, t⟩, ps)
  | .readCountersWithClear p t b => some (.readCounters, ⟨p, t⟩, [b, 1])
  | .readFaults p t ps => some (.readFaults, ⟨p, t⟩, ps)
  | .readConfig p t ps => some (.readConfig, ⟨p, t⟩, ps)
  | .clearFaults p t ps => some (.clearFaults, ⟨p, t⟩, ps)
  | .stage p t ps => some (.stage, ⟨p, t⟩, ps)
  | .unstage p t ps => some (.unstage, ⟨p, t⟩, ps)
  | .abandon p t ps => some (.abandon, ⟨p, t⟩, ps)
  | .setModeRun p t => some (.setMode, ⟨p, t⟩, [1])
  | .setModeBypass p t => some (.setMode, ⟨p, t⟩, [2])
  | .commit p t ps => some (.commit, ⟨p, t⟩, ps)
  | .erase p t ps => some (.erase, ⟨p, t⟩, ps)
  | .reclaim p t ps => some (.reclaim, ⟨p, t⟩, ps)
  | .setConfig p t ps => some (.setConfig, ⟨p, t⟩, ps)
  | .restart p t ps => some (.restart, ⟨p, t⟩, ps)
  | _ => none

/-- A request of this port and tag passes the first two screens of dispatch: the unit is RUNNING or BYPASS, and no such request
is in progress (R149, R150). -/
def State.admitsRead (s : State) (o : Origin) : Bool :=
  (decide (s.opState = .running) || decide (s.opState = .bypass)) && !s.inProgress o

/-- A request of a state-changing kind passes the first three screens: also the port's reply memory holds no reply of its tag
(R151). -/
def State.admits (s : State) (o : Origin) : Bool :=
  s.admitsRead o && (s.storedReply o).isNone

/-- The state with a request appended to the Request Queue; one that comes to the head is offered to the engine at once (R106,
R109). -/
def State.enqueued (s : State) (q : QueuedRequest) : State :=
  let t : State := { s with queue := s.queue ++ [q] }
  if s.queue = [] then t.engineNext else t

/-- No work of the engine, the banks or the lookup stages is under way. -/
def State.quietInside (s : State) : Bool :=
  s.program.isNone && decide (s.op = .idle) && decide (s.banks = State.reset.banks) &&
    decide (s.cfgBank = CfgBank.reset) && decide (s.stages = State.reset.stages)

/-- The unit is HELD exactly while it is supplied and RESET is asserted, and nothing goes on inside it while it is HELD or
without supply (R179, R180, R181). -/
def State.heldByReset (s : State) : Bool :=
  match s.opState with
  | .noPower => s.quietInside
  | .held => s.resetAsserted && s.quietInside
  | _ => !s.resetAsserted

/-! ## The working invariant: what ties the engine's records, the banks, the segments and the index to the store -/

/-- A position may name slots of the segment: a route segment OPEN, FILLED or FAULTED (R14, R24). -/
def State.holdsRoutes (s : State) (g : Nat) : Bool :=
  decide (g < Config.routeSegments) && (s.segIs g .opened || s.segIs g .filled || s.segIs g .faulted)

/-- Every position that is not none names a slot that R24 allows, in such a segment. -/
def State.indexSound (s : State) : Bool :=
  s.index.all (fun kv =>
    match kv.2 with
    | some a => s.store.indexable kv.1 a && s.holdsRoutes a.seg
    | none => true)

/-- No position names the slot. -/
def State.unnamed (s : State) (a : SlotAddr) : Bool :=
  s.index.all (fun kv => decide (kv.2 ≠ some a))

/-- The slot is written or spent, and holds at most an entry of the channel: a VOID, a retire or a promotion may be made to it. -/
def Store.spendable (m : Store) (a : SlotAddr) (channel : Option Nat) : Bool :=
  match m.slot a with
  | .blank => false
  | .written ⟨_, _, .entry e⟩ => decide (channel = none) || decide (channel = some e.channel)
  | .written ⟨_, _, .seal _⟩ => false
  | _ => true

/-- The number of slots of a segment that the store shows in use (R64). -/
def Store.inUseCount (m : Store) (g : Nat) : Nat :=
  m.slots.countP (fun kv => decide (kv.1 / Config.slotsPerSegment = g) && kv.2.inUse)

/-- The current operation is the mount, which has not yet set the in-use counts (R194). -/
def CurrentOp.isMount : CurrentOp → Bool
  | .mount _ => true
  | _ => false

/-- The fill pointer and the in-use count of a route segment lie in their ranges (R17, R64), and the count is that of the
store; it is 0 in a segment that is CLEAN or ERASING. -/
def State.segSound (s : State) (g : Nat) : Bool :=
  decide (s.fillOf g ≤ Config.slotsPerSegment) && decide (s.inUseOf g ≤ Config.slotsPerSegment) &&
    (s.op.isMount ||
      (!s.holdsRoutes g || decide (s.inUseOf g = s.store.inUseCount g)) &&
        (!(s.segIs g .clean || s.segIs g .erasing) || decide (s.inUseOf g = 0)))

/-- Every slot at or above the fill pointer of an OPEN segment is BLANK, and so is every slot of a CLEAN one (R14, R17). -/
def State.blanksSound (s : State) : Bool :=
  s.store.slots.all (fun kv =>
    let g := kv.1 / Config.slotsPerSegment
    decide (Config.routeSegments ≤ g) ||
      !s.segIs g .clean && (!s.segIs g .opened || decide (kv.1 % Config.slotsPerSegment < s.fillOf g)))

/-- The issue counter, once set, lies in its range (R45). -/
def State.issueSound (s : State) : Bool :=
  match s.issue with
  | some n => decide (1 ≤ n) && decide (n ≤ Config.issueEnd)
  | none => true

/-! ### Batches -/

/-- The slot of the entry in position i holds it PENDING with the issue number of the batch (R52). -/
def Store.holdsPending (m : Store) (b : Batch) (i : Nat) : Bool :=
  match b.entries[i]? with
  | some e => decide (m.slot (b.own i) = .written ⟨.pending, b.issue, .entry e⟩)
  | none => false

/-- The predecessor of the entry in position i is a slot that a position may name for its channel, and not its own (R26, R27). -/
def State.predSound (s : State) (b : Batch) (i channel : Nat) : Bool :=
  match b.predAt i with
  | some x => s.store.indexable channel x && s.holdsRoutes x.seg && decide (x ≠ b.own i)
  | none => true

/-- The entry in position i waits for its SETTLE: PENDING, its channel's position switched, its predecessor as it was (R26, R56). -/
def State.awaitsSettle (s : State) (b : Batch) (i : Nat) : Bool :=
  s.store.holdsPending b i &&
    match b.entries[i]? with
    | some e => decide (s.position e.channel = if e.isRoute then some (b.own i) else none) && s.predSound b i e.channel
    | none => false

/-- The slot is spent of an entry of the channel, and the position of the channel does not name it. -/
def State.released (s : State) (a : SlotAddr) (channel : Nat) : Bool :=
  decide (a.seg < Config.routeSegments) && decide (a.slot < Config.slotsPerSegment) && s.store.spendable a (some channel) &&
    decide (s.position channel ≠ some a)

/-- The step of SETTLE in progress for an entry in position k (R56 to R59). -/
def State.settleSound (s : State) (b : Batch) (k : Nat) (e : Entry) (st : SettleStep) : Bool :=
  match st with
  | .promote => e.isRoute && s.awaitsSettle b k
  | .retirePred | .voidPred =>
    (match b.predAt k with
     | some x => s.released x e.channel
     | none => false) && (e.isRoute || s.released (b.own k) e.channel)
  | .retireOwn => !e.isRoute && s.released (b.own k) e.channel
  | .voidOwn => s.released (b.own k) e.channel

/-- A batch has 1 to 16 entries of distinct channels. -/
def entriesSound (es : List Entry) : Bool :=
  !es.isEmpty && decide (es.length ≤ Config.stagingCapacity) && distinctChannels es

/-- The record of a batch agrees with the store, the segments and the index at its step (R51 to R59). -/
def State.batchSound (s : State) (b : Batch) : Bool :=
  entriesSound b.entries && decide (b.seg < Config.routeSegments) &&
    decide (b.first + b.entries.length < Config.slotsPerSegment) &&
    match b.step with
    | .write k =>
      decide (k < b.entries.length) && s.segIs b.seg .opened && decide (s.fillOf b.seg = b.first + k + 1) &&
        (List.range k).all (s.store.holdsPending b) && decide (s.store.slot (b.own k) = .blank)
    | .seal =>
      s.segIs b.seg .opened && decide (s.fillOf b.seg = b.first + b.entries.length + 1) &&
        (List.range b.entries.length).all (s.store.holdsPending b) && decide (s.store.slot b.sealSlot = .blank)
    | .voiding _ _ todo =>
      !todo.isEmpty && todo.all (fun t =>
        decide (t.slot < Config.slotsPerSegment) && s.store.spendable { seg := b.seg, slot := t.slot } none &&
          s.unnamed { seg := b.seg, slot := t.slot })
    | .settle k st =>
      decide (s.store.slot b.sealSlot = .written ⟨.live, b.issue, .seal b.entries.length⟩) && s.holdsRoutes b.seg &&
        (match b.entries[k]? with
         | some e => s.settleSound b k e st
         | none => false) &&
        (List.range b.entries.length).all (fun i => decide (i ≤ k) || s.awaitsSettle b i)

/-! ### The mount -/

/-- What a read of full margin records for a slot (R20, R186). -/
def Slot.recordable (v : Slot) : Slot :=
  recordOfRead (readCells v false)

/-- SLOT SCAN has passed the slot with this key. -/
def Mount.scanned (m : Mount) (k : Nat) : Bool :=
  decide (m.phase = .repair) || decide (k / Config.slotsPerSegment < m.scan.seg) ||
    (decide (k / Config.slotsPerSegment = m.scan.seg) && decide (k % Config.slotsPerSegment < m.scan.slot))

/-- The mount's records of the slots it has read: each MARGIN_FAIL or what the store holds, none of a segment recorded unstamped, and
one of every slot read that is not BLANK (R184, R186). -/
def Mount.recordsSound (m : Mount) (st : Store) : Bool :=
  tableWf .blank m.slots && tableWf .blank m.cfgSlots &&
    m.slots.all (fun kv =>
      decide (kv.1 / Config.slotsPerSegment < Config.routeSegments) && m.stamped (kv.1 / Config.slotsPerSegment) && m.scanned kv.1 &&
        (decide (kv.2 = .indeterminate) || decide (kv.2 = (tableGet .blank st.slots kv.1).recordable))) &&
    st.slots.all (fun kv =>
      !(decide (kv.1 / Config.slotsPerSegment < Config.routeSegments) && m.stamped (kv.1 / Config.slotsPerSegment) && m.scanned kv.1) ||
        decide (tableGet .blank m.slots kv.1 ≠ .blank)) &&
    m.cfgSlots.all (fun kv =>
      match kv.2 with
      | .live n _ => issueInRange n
      | _ => true)

/-- A candidate is a recorded PENDING or LIVE entry of its channel, sealed by a recorded seal (R187). -/
def Mount.candidateSound (m : Mount) (c : Candidate) : Bool :=
  match tableGet .blank m.slots (slotKey c.addr) with
  | .written ⟨st, n, .entry e⟩ =>
    decide (st ≠ .retired) && decide (c.addr.seg < Config.routeSegments) && decide (c.addr.slot < Config.slotsPerSegment) &&
      decide (n = c.issue) && decide (e.channel = c.channel) && decide (e.isRoute = c.isRoute) && sealedBy m.slots (slotKey c.addr) n
  | _ => false

/-- A repair still to be made to a route slot (R188, R192, R193): a VOID of a slot recorded MARGIN_FAIL or not sealed, a promotion in a
channel whose candidates all stand, a retire of a slot that the channel's position does not name. -/
def State.repairSound (s : State) (m : Mount) (r : Repair) : Bool :=
  if r.addr.seg < Config.routeSegments then
    let recorded : Store := { s.store with slots := m.slots }
    decide (r.addr.slot < Config.slotsPerSegment) &&
      match r.act, r.group with
      | .void, _ =>
        recorded.spendable r.addr none &&
          (match recorded.slot r.addr with
           | .written x => !sealedBy m.slots (slotKey r.addr) x.issue
           | _ => true)
      | .promote, some ch =>
        recorded.spendable r.addr (some ch) && m.cands.all (fun c => decide (c.channel ≠ ch) || m.candidateSound c)
      | .retire, some ch => recorded.spendable r.addr (some ch) && decide (s.position ch ≠ some r.addr)
      | _, _ => false
  else decide (r.act = .void) && decide (r.addr.seg < Config.segments) && decide (r.addr.slot < Config.slotsPerCfgSegment)

/-- A promotion comes before every retire of its channel, and after at most VOIDs of it (R192, R193). -/
def promotionsFirst : List Repair → Bool
  | [] => true
  | r :: rs =>
    (decide (r.act = .void) || rs.all (fun x => decide (x.act ≠ .promote) || decide (x.group ≠ r.group))) && promotionsFirst rs

/-- The mount's working state agrees with the store, the segments and the index at its phase (R184 to R194). -/
def State.mountSound (s : State) (m : Mount) : Bool :=
  match m.phase with
  | .headerScan =>
    decide (m.headers.length < Config.segments) && m.slots.isEmpty && m.cfgSlots.isEmpty && s.index.isEmpty
  | .slotScan =>
    decide (m.headers.length = Config.segments) && m.recordsSound s.store && s.index.isEmpty && m.stamped m.scan.seg &&
      decide (m.scan.slot < slotsOf m.scan.seg)
  | .repair =>
    !m.repairs.isEmpty && m.recordsSound s.store && m.repairs.all (s.repairSound m) && promotionsFirst m.repairs &&
      s.index.all (fun kv =>
        match kv.2 with
        | some a => ({ s.store with slots := m.slots } : Store).indexable kv.1 a
        | none => true) &&
      s.store.slots.all (fun kv =>
        !(decide (kv.1 / Config.slotsPerSegment < Config.routeSegments) && m.stamped (kv.1 / Config.slotsPerSegment) && kv.2.inUse) ||
          decide (tableGet .blank m.slots kv.1 ≠ .indeterminate) ||
          m.repairs.any (fun r => decide (r.act = .void) && decide (r.group = none) && decide (slotKey r.addr = kv.1))) &&
      (List.range Config.routeSegments).all (fun g => m.stamped g || s.segIs g .torn) &&
      ({ s with store := { s.store with slots := m.slots } } : State).blanksSound
  | _ => false

/-! ### Programs and claims -/

/-- The program that a batch has claimed or in progress at its step (R52 to R59). -/
def Batch.issues (b : Batch) (p : Program) : Bool :=
  match b.step with
  | .write k =>
    match b.entries[k]? with
    | some e => decide (p = { role := .write, job := .slot (b.own k) (.entry b.issue e) })
    | none => false
  | .seal => decide (p = { role := .seal, job := .slot b.sealSlot (.seal b.issue b.entries.length) })
  | .voiding _ _ (t :: _) => decide (p = { role := .void, job := .slot { seg := b.seg, slot := t.slot } .void })
  | .voiding _ _ [] => false
  | .settle k st => decide (p = { role := st.role, job := .slot (b.settleSlot k st) st.write })

/-- The program that a configuration write has in progress at its step (R170 to R173). -/
def ConfigWrite.issues (w : ConfigWrite) (p : Program) : Bool :=
  match w.step, p with
  | .stamping, ⟨.configStamp, .stamp g _⟩ => decide (w.target.map CfgSeg.id = some g)
  | .writing, ⟨.configWrite, .cfgRecord a _ _⟩ => decide (w.slot = some a)
  | .voiding, ⟨.configVoid, .cfgVoid a⟩ => decide (w.slot = some a)
  | _, _ => false

/-- The program that the current operation has claimed or in progress. -/
def State.issues (s : State) (p : Program) : Bool :=
  match s.op with
  | .commit b => b.issues p
  | .reclaim ⟨_, _, _, _, _, .writing b⟩ => b.issues p
  | .erase e => decide (e.step = .stamping) && decide (p = { role := .stamp, job := .stamp e.seg (s.erasesOf e.seg) })
  | .configWrite w => w.issues p
  | .mount m => decide (m.phase = .repair) && decide (m.repairs.head?.map Repair.program = some p)
  | _ => false

/-- The program that a bank's claim is for. -/
def BankUnit.claimed? (u : BankUnit) : Option Program :=
  match u.claim with
  | some (.program p) => some p
  | _ => none

/-- The programs claimed or in progress. -/
def State.programs (s : State) : List Program :=
  s.program.toList ++ [s.banks.b0, s.banks.b1, s.banks.b2, s.banks.b3].filterMap BankUnit.claimed?

/-- At most one program is claimed or in progress, and it is that of the current operation (R102, R107). -/
def State.programsSound (s : State) : Bool :=
  match s.programs with
  | [] => true
  | [p] => s.issues p
  | _ => false

/-- The route bank that a program is made in, if it is one (R95, R102). -/
def Program.bank? (p : Program) : Option Bank :=
  match p.job with
  | .slot a _ => some (bankOf a.seg)
  | .stamp g _ => if g < Config.routeSegments then some (bankOf g) else none
  | _ => none

/-- The erase that works in a bank (R91): RUNNING, WAITING, SUSPENDING or STOPPING. -/
def EraseStep.atWork : EraseStep → Bool
  | .running | .waiting | .suspending | .stopping _ => true
  | _ => false

/-- The current operation is an erase in this bank at a step with the property. -/
def State.erasesIn (s : State) (b : Bank) (f : EraseStep → Bool) : Bool :=
  match s.op with
  | .erase e => decide (bankOf e.seg = b) && f e.step
  | _ => false

/-- The segment under the erase that stands suspended in the bank, by the record of the erase in progress (R73, R94). -/
def State.suspendedIn (s : State) (b : Bank) : Option Nat :=
  match s.eraseNow with
  | some e => if e.step = .suspended ∧ bankOf e.seg = b then some e.seg else none
  | none => none

/-- A bank's queue and its read in flight are those of lookup stages that wait and read, each once; the marker counts the reads that
are counted; a bank with a claim serves no new reads; the bank is PROGRAMMING for the program in progress, and ERASE_RUNNING or
SUSPEND_WAIT for the current erase; it names the segment of the erase suspended in it, by which it is FREE or ERASE_SUSPENDED at
rest (R90 to R98). -/
def State.bankSound (s : State) (b : Bank) : Bool :=
  let u := s.bank b
  decide (u.queue.map QueuedRead.stage).Nodup &&
    u.queue.all (fun q =>
      match s.stages.get q.stage with
      | .waitBank h => decide (h.addr = q.addr) && decide (bankOf q.addr.seg = b)
      | _ => false) &&
    (match u.inFlight with
     | none => true
     | some r =>
       (u.state.readable || (decide (u.state = .draining) && r.counted)) &&
         match r.party with
         | .lookup p =>
           match s.stages.get p with
           | .reading h => decide (r.target = .slot h.addr) && decide (bankOf h.addr.seg = b)
           | _ => false
         | _ => true) &&
    decide (u.marker = u.queue.countP QueuedRead.counted + u.inFlight.toList.countP InFlight.counted) &&
    (match u.claim with
     | none => true
     | some c =>
       !u.state.readable &&
         match c with
         | .program p => decide (p.bank? = some b)
         | .erase g => s.erasesIn b (fun st => decide (st = .claimed)) && decide (bankOf g = b)
         | .resume _ => false
         | .read _ => true) &&
    decide (u.suspended = s.suspendedIn b) &&
    match u.state with
    | .programming => decide (s.program.bind Program.bank? = some b)
    | .eraseRunning => s.erasesIn b EraseStep.atWork
    | .suspendWait => s.erasesIn b EraseStep.atWork
    | .free => u.suspended.isNone
    | .eraseSuspended => u.suspended.isSome
    | .draining => true

/-- The bank of the program in progress is PROGRAMMING, that of an erase at work is ERASE_RUNNING or SUSPEND_WAIT (R91). -/
def State.workSound (s : State) : Bool :=
  (match s.program.bind Program.bank? with
   | some b => decide ((s.bank b).state = .programming)
   | none => true) &&
    match s.op with
    | .erase e =>
      !e.step.atWork || decide ((s.bank (bankOf e.seg)).state = .eraseRunning) ||
        (decide ((s.bank (bankOf e.seg)).state = .suspendWait) && decide (e.step ≠ .running))
    | _ => true

/-! ### The engine's records -/

/-- The erase in progress has its segment ERASING; while it is stamped every slot of it is BLANK (R67, R70). -/
def State.eraseSound (s : State) : Bool :=
  match s.eraseNow with
  | some e =>
    decide (e.seg < Config.routeSegments) && s.segIs e.seg .erasing &&
      (decide (e.step ≠ .stamping) || s.store.slots.all (fun kv => decide (kv.1 / Config.slotsPerSegment ≠ e.seg)))
  | none => true

/-- The record of the current operation agrees with the rest of the state. -/
def State.opSound (s : State) : Bool :=
  match s.op with
  | .mount m => s.mountSound m
  | .commit b => s.batchSound b
  | .reclaim r =>
    decide (r.seg < Config.routeSegments) &&
      match r.stage with
      | .reading todo images =>
        decide (images.map Entry.channel ++ todo.map Source.channel).Nodup &&
          decide (images.length + todo.length ≤ Config.groupSize)
      | .writing b => s.batchSound b
  | .configWrite w => decide (w.step = .writing) || decide (w.step = .voiding) || !s.issueExhausted
  | _ => true

/-- A queued request is one that its acceptance allows (R42, R65, R80). -/
def QueuedRequest.sound (q : QueuedRequest) : Bool :=
  match q.kind with
  | .commit es => entriesSound es
  | .erase g => decide (g < Config.routeSegments)
  | .reclaim g => decide (g < Config.routeSegments)
  | _ => true

/-- Without supply and while HELD the Channel Index is at its reset value (R25, R179). -/
def State.heldSound (s : State) : Bool :=
  s.opState.linkUp || s.index.isEmpty

/-- The suspended-erase record is at SUSPENDED (R73, R108). -/
def State.suspendedSound (s : State) : Bool :=
  match s.suspended with
  | some e => decide (e.step = .suspended)
  | none => true

/-- The banks, the reads, the claims and the one program in progress stand in order with the lookup stages and the current operation. -/
def State.ordered (s : State) : Bool :=
  s.canonical && s.heldByReset && s.oneErase && s.suspendedSound && [Bank.b0, .b1, .b2, .b3].all s.bankSound && s.workSound &&
    s.programsSound

/-- The working invariant of the unit: in order, and the engine's records, the segments and the Channel Index agree with the store. -/
def State.sound (s : State) : Bool :=
  s.ordered && s.heldSound && s.atMostOneOpen && s.staging.consistent &&
    decide (s.staging.entries.length ≤ Config.stagingCapacity) && s.queue.all QueuedRequest.sound && s.indexSound &&
    (List.range Config.routeSegments).all s.segSound && decide (s.fillOf Config.segCA ≤ Config.slotsPerCfgSegment) &&
    decide (s.fillOf Config.segCB ≤ Config.slotsPerCfgSegment) && s.blanksSound && s.issueSound && s.eraseSound && s.opSound

end Sys2Proof.Machine
end

