-- ==== Sys2Proof/Certificates/Slice0/Obligations.lean ====
section
/-! DEFINITION. The statements for the provers. A statement about a command concludes that exec answers a next state and says
what that state holds; `drained` and `examined` are what holds between two commands (invariants of every step, stated below), and
`examineErase` ends the events that settle (log 10): with no route erase current it is the identity. -/

open Sys2Proof Sys2Proof.Machine

/-! ## The step, and the pieces of State -/

/-- The step of a state with a command at the front of its queue is that command's effect on the state with the rest; every command
answers a next state in every state, and leaves the queue of waiting commands alone; with no command waiting the block idles (the
model's choice, log 6). -/
def Obligations.StepRunsTheFrontCommand : Prop :=
  (∀ (c : Instr) (rest : List Instr) (s : State),
    step { s with pending := c :: rest } = exec c { s with pending := rest }) ∧
  (∀ (c : Instr) (s : State), ∃ t, exec c s = .next t ∧ t.pending = s.pending) ∧
  ∀ s : State, s.pending = [] → step s = .next s

/-- What the names mean by which the statements read and change one piece of State: a bank, a lookup stage, a piece of a port or a
line, the volatile values of a segment, a position of the Channel Index, the batch being written, a counter. Each change is read
back where it was made, and every other piece stands. A route segment lies in the bank of its id divided by 8 (R1); a counter goes
up by one and stands at 4,294,967,295 (R142); a count that has no value reads as 0, an issue counter that has none as its end. -/
def Obligations.ReadsAndUpdatesTouchTheNamedPieceAlone : Prop :=
  (∀ g : Nat, g < 32 → bankOf g = if g < 8 then .b0 else if g < 16 then .b1 else if g < 24 then .b2 else .b3) ∧
  (CfgSeg.ca.id = 32 ∧ CfgSeg.cb.id = 33) ∧
  (∀ (s : State) (b c : Bank) (u : BankUnit),
    s.setBank b u = { s with banks := (s.setBank b u).banks } ∧ (s.setBank b u).bank c = if c = b then u else s.bank c) ∧
  (∀ (s : State) (p q : Port) (g : Stage),
    s.setStage p g = { s with stages := (s.setStage p g).stages } ∧
      (s.setStage p g).stages.get q = if q = p then g else s.stages.get q) ∧
  (∀ (α : Type) (x : PerPort α) (p q : Port) (v : α), (x.set p v).get q = if q = p then v else x.get q) ∧
  (∀ (α : Type) (x : PerLine α) (l k : Line) (v : α), (x.set l v).get k = if k = l then v else x.get k) ∧
  (∀ (s : State) (g x : Nat) (v : SegVol), s.canonical = true →
    s.setSeg g v = { s with segs := (s.setSeg g v).segs } ∧ (s.setSeg g v).seg x = if x = g then v else s.seg x) ∧
  (∀ (s : State) (ch x : Nat) (v : Option SlotAddr), s.canonical = true →
    s.setPosition ch v = { s with index := (s.setPosition ch v).index } ∧
      (s.setPosition ch v).position x = if x = ch then v else s.position x) ∧
  (∀ (s : State) (g : Nat),
    s.fillOf g = (s.seg g).fill.getD 0 ∧ s.inUseOf g = (s.seg g).inUse.getD 0 ∧ s.erasesOf g = (s.seg g).erases.getD 0 ∧
      (∀ x : SegState, s.segIs g x = true ↔ (s.seg g).state = some x) ∧ s.issueNow = s.issue.getD 4294967295) ∧
  (∀ (s : State) (g n : Nat) (x : SegState),
    s.setSegFill g x n = s.setSeg g { s.seg g with state := some x, fill := some n } ∧
      s.setInUse g n = s.setSeg g { s.seg g with inUse := some n } ∧
      s.bumpFill g = s.setSeg g { s.seg g with fill := some (s.fillOf g + 1) }) ∧
  (∀ (s : State) (b : Batch),
    (s.batch? = some b ↔ s.op = .commit b ∨ ∃ r : ReclaimRec, s.op = .reclaim r ∧ r.stage = .writing b) ∧
      (∀ x : Batch, s.op = .commit x → s.setBatch b = { s with op := .commit b }) ∧
      ∀ r : ReclaimRec, s.op = .reclaim r → s.setBatch b = { s with op := .reclaim { r with stage := .writing b } }) ∧
  (∀ (b : Batch) (k : Nat), b.channelAt k = (b.entries[k]?).map Entry.channel ∧ b.predAt k = b.preds.getD k none) ∧
  (∀ e : Entry, e.isRoute = true ↔ ∃ f : RouteFields, e.kind = .route f) ∧
  ∀ (s : State) (p : Port) (c : Counter),
    let order : List Counter :=
      [.received, .check, .format, .ingressFull, .noRoute, .notAccepted, .holdExpired, .stale, .discarded, .noDeliverToSelf, .passed,
        .delivered, .mgmtConsumed, .mgmtPassed, .bypassed, .tapIdle, .egressFull, .replyLost]
    s.count p c = { s with counters := (s.count p c).counters } ∧
    (∀ q : Port, q ≠ p → (s.count p c).counters.get q = s.counters.get q) ∧
    ∀ (i : Nat) (d : Counter) (n : Nat), order[i]? = some d → (s.counters.get p).toList[i]? = some n →
      ((s.count p c).counters.get p).toList[i]? = some (if d = c then (if n < 4294967295 then n + 1 else n) else n)

/-! ## The reset state and the invariants -/

/-- State.reset is the unit right after the assertion of RESET, with the store as delivered (R10, R179; GUARD RELEASE not asserted
is the model's choice, log 3; that State.reset stands after RESET is log 1). It satisfies the invariants below. -/
def Obligations.ResetStateHoldsTheResetValuesAndTheInvariants : Prop :=
  (State.reset.AtReset ∧ State.reset.opState = .held ∧ State.reset.resetAsserted = true ∧ State.reset.guardRelease = false ∧
    State.reset.pending = [] ∧ (∀ a : SlotAddr, State.reset.store.slot a = .blank) ∧
    (∀ a : SlotAddr, State.reset.store.cfgSlot a = .blank) ∧ ∀ g : Nat, State.reset.store.header g = .stamped 0) ∧
  State.reset.canonical = true ∧ State.reset.withinCapacity = true ∧ State.reset.staging.consistent = true ∧
    State.reset.drained = true ∧ State.reset.sendersBusy = true ∧ State.reset.heldByReset = true ∧
    State.reset.atMostOneOpen = true ∧ State.reset.atMostOneOpenCfg = true ∧ State.reset.oneErase = true ∧
    State.reset.originsDistinct = true ∧ State.reset.examined = true ∧ State.reset.indexGood ∧
    State.reset.ordered = true ∧ State.reset.sound = true

/-- Every step keeps the canonical form of the store, the Channel Index and the segment values. -/
def Obligations.StepKeepsTheCanonicalForms : Prop :=
  ∀ s t : State, s.canonical = true → step s = .next t → t.canonical = true

/-- Every step keeps within their capacities the ingress FIFOs (R124), the traffic, reply and delivery FIFOs (R135, R137), the
Request Queue (R105), the Fault List and its overflow count (R119), the Staging Buffer (R34) and the port counters (R142). The read
queue and the claim marker of a bank, the fill pointer, the in-use count and the issue counter keep their ranges by the statements
StepKeepsTheBanksInOrder and StepKeepsTheIndexOnTheStore. -/
def Obligations.StepKeepsTheCapacities : Prop :=
  ∀ s t : State, s.withinCapacity = true → step s = .next t → t.withinCapacity = true

/-- Every step keeps the Staging Buffer's form (R34): an owner, a tag and a running timer exactly when it holds an entry, no two
entries for one channel. -/
def Obligations.StepKeepsTheStagingBufferConsistent : Prop :=
  ∀ s t : State, s.staging.consistent = true → step s = .next t → t.staging.consistent = true

/-- Every step keeps the requests distinct (R105, R150): no port and tag appears twice among the queued and running requests, those
of the Request Queue, of the current operation and of the suspended-erase record. -/
def Obligations.StepKeepsRequestsDistinct : Prop :=
  ∀ s t : State, s.originsDistinct = true → step s = .next t → t.originsDistinct = true

/-- Every step moves the state of every route slot only forward along BLANK, PENDING, LIVE, RETIRED, or to VOID, or leaves it
indeterminate, and changes nothing else of a record; only an ERASE_COMPLETION returns a slot to BLANK, and then every slot of its
segment, whose header reads unstamped (R6, R10). It holds across every reset and loss of power. -/
def Obligations.StepMovesSlotsForwardOnly : Prop :=
  ∀ s t : State, s.canonical = true → step s = .next t → ∀ a : SlotAddr, a.slot < 64 →
    Slot.forward (s.store.slot a) (t.store.slot a) = true ∨
      ((∃ (us : Nat) (rest : List Instr), s.pending = .eraseCompletion us :: rest) ∧
        (∀ n : Nat, n < 64 → t.store.slot ⟨a.seg, n⟩ = .blank) ∧ t.store.header a.seg = .unstamped)

/-- The events that change the Channel Index, or the slots that it may name, keep every position on a PENDING or LIVE ROUTE of its
channel in a batch whose seal is LIVE in its segment (R24, and the list under it). A program that ends is a promotion that passed,
or is made to a slot that no position names and that holds no LIVE seal; a seal that passed switches the index to the entries of its
batch (R26); a position that is moved off its slot takes an address that is good (R27, R193); an erase concerns a segment that no
position names; RESOLVE takes sealed records as the store holds them (R28); a reset leaves no position (R25). -/
def Obligations.IndexStaysOnSealedRoutes : Prop :=
  (∀ (s : State) (p : Program) (pass : Bool), s.canonical = true → s.indexGood →
    (∀ (a : SlotAddr) (w : SlotWrite), p.job = .slot a w → a.slot < 64 ∧
      ((w = .promote ∧ pass = true) ∨
        ((∀ ch : Nat, s.position ch ≠ some a) ∧ ∀ n k : Nat, s.store.slot a ≠ .written ⟨.live, n, .seal k⟩))) →
    (s.endProgram p pass).indexGood) ∧
  (∀ (s : State) (b : Batch), s.canonical = true → s.indexGood → b.seg < 32 → b.first + b.entries.length < 64 →
    s.store.slot ⟨b.seg, b.first + b.entries.length⟩ = .written ⟨.live, b.issue, .seal b.entries.length⟩ →
    (∀ (i : Nat) (e : Entry), b.entries[i]? = some e → e.isRoute = true →
      s.store.slot ⟨b.seg, b.first + i⟩ = .written ⟨.pending, b.issue, .entry e⟩) →
    (s.switchIndex b).indexGood) ∧
  (∀ (s : State) (ch : Nat) (v : Option SlotAddr), s.canonical = true →
    (∀ (c : Nat) (a : SlotAddr), c ≠ ch → s.position c = some a → s.store.indexable c a = true) →
    (∀ a : SlotAddr, v = some a → s.store.indexable ch a = true) → (s.setPosition ch v).indexGood) ∧
  (∀ (s : State) (g : Nat), s.canonical = true → s.indexGood → (∀ (ch : Nat) (a : SlotAddr), s.position ch = some a → a.seg ≠ g) →
    ({ s with store := s.store.erased g } : State).indexGood ∧ ({ s with store := s.store.torn g } : State).indexGood) ∧
  (∀ (s : State) (m : Mount), tableWf .blank m.slots = true →
    (∀ (k : Nat) (r : SlotRecord), tableGet .blank m.slots k = .written r →
      k < 2048 ∧ tableGet .blank s.store.slots k = .written r) →
    (s.resolve m).indexGood) ∧
  (∀ (s : State) (o : OpState), (s.volatileReset o).indexGood) ∧
  ∀ (m : Store) (ch : Nat) (a : SlotAddr), m.wf = true →
    (m.indexable ch a = true ↔
      a.seg < 32 ∧ a.slot < 64 ∧ ∃ (st : RecState) (n c k : Nat) (f : RouteFields),
        m.slot a = .written ⟨st, n, .entry ⟨ch, .route f⟩⟩ ∧ st ≠ .retired ∧ a.slot < c ∧ c < 64 ∧ c ≤ a.slot + k ∧
        m.slot ⟨a.seg, c⟩ = .written ⟨.live, n, .seal k⟩)

/-- Every step ends with no lookup stage IDLE while a frame waits in its ingress FIFO (R125), with no transmitter idle while its
FIFOs hold something (R136, R137), and with the suspension reasons and the resume condition of the route erase examined and taken up
(R72, R73, R75): a command that leaves none of them to take up keeps it so. That they are examined again at the end of an event is
the model's choice (log 10). -/
def Obligations.StepLeavesNothingWaiting : Prop :=
  (∀ s t : State, s.drained = true → step s = .next t → t.drained = true) ∧
  (∀ s t : State, s.sendersBusy = true → step s = .next t → t.sendersBusy = true) ∧
  ∀ s t : State, s.examined = true → step s = .next t → t.examined = true

/-- Every step keeps at most one route segment OPEN, and at most one ERASING, which is the segment of the route erase in progress
(R14); at most one configuration segment OPEN (R163); the suspended-erase record present only while a COMMIT or CONFIG_WRITE is
current (R108); and the unit HELD exactly while it is supplied and RESET is asserted, with nothing going on inside it while it is
HELD or without supply (R179 to R181), on which the ERASING segment rests. -/
def Obligations.StepKeepsOneOpenOneErasingAndHeldWithReset : Prop :=
  (∀ s t : State, s.canonical = true → s.atMostOneOpen = true → step s = .next t → t.atMostOneOpen = true) ∧
  (∀ s t : State, s.canonical = true → s.atMostOneOpenCfg = true → step s = .next t → t.atMostOneOpenCfg = true) ∧
  (∀ s t : State, s.canonical = true → s.heldByReset = true → s.oneErase = true → step s = .next t → t.oneErase = true) ∧
  ∀ s t : State, s.heldByReset = true → step s = .next t → t.heldByReset = true

/-- Every step keeps the banks in order (R90 to R98, R102): a queued read belongs to a lookup stage in WAIT_BANK, a lookup's read in
flight to one that is READING, each stage having one; the marker counts the counted reads; at most one program is claimed or in
progress, the one that the current operation's step issues, and its bank is PROGRAMMING for it alone; a bank is ERASE_RUNNING or
SUSPEND_WAIT for the current erase at a step at work; it names the segment of the erase that stands SUSPENDED in it (R94). So a read
queue holds at most 3 reads, a marker stands at 4 at most, and a read is in flight only in a bank that is FREE, DRAINING or
ERASE_SUSPENDED. -/
def Obligations.StepKeepsTheBanksInOrder : Prop :=
  (∀ s t : State, s.ordered = true → step s = .next t → t.ordered = true) ∧
  ∀ s : State, s.ordered = true →
    s.programs.length ≤ 1 ∧
    ∀ b : Bank,
      (∀ g : Nat, (s.bank b).suspended = some g ↔
        ∃ e : EraseRec, (s.op = .erase e ∨ s.suspended = some e) ∧ e.step = .suspended ∧ e.seg = g ∧ bankOf g = b) ∧
      ((s.bank b).state = .free → (s.bank b).suspended = none) ∧
      ((s.bank b).state = .eraseSuspended → (s.bank b).suspended ≠ none) ∧
      (s.bank b).queue.length ≤ 3 ∧ (s.bank b).marker ≤ 4 ∧
      ((s.bank b).inFlight ≠ none →
        (s.bank b).state = .free ∨ (s.bank b).state = .draining ∨ (s.bank b).state = .eraseSuspended) ∧
      ((s.bank b).state = .programming ↔ ∃ p : Program, s.program = some p ∧ p.bank? = some b) ∧
      ((s.bank b).state = .eraseRunning ∨ (s.bank b).state = .suspendWait ↔
        ∃ e : EraseRec, s.op = .erase e ∧ bankOf e.seg = b ∧
          (e.step = .running ∨ e.step = .waiting ∨ e.step = .suspending ∨ ∃ c : StopCause, e.step = .stopping c))

/-- Every step keeps the working invariant of the unit: besides the order of the banks, the records of the current operation (the
batch at its step, the mount with its records and repair list, the erase), the segments and the Channel Index agree with the store.
Under it every position that is not none names a PENDING or LIVE ROUTE of its channel in a batch whose seal is LIVE in its segment
(R24), in a segment OPEN, FILLED or FAULTED; a fill pointer lies in 0..64, of a configuration segment in 0..16 (R17), and every slot
of an OPEN segment from it on is BLANK; an in-use count lies in 0..64 and, but for the mount, is that of the store (R64); the issue
counter lies in 1..4294967295 (R45). -/
def Obligations.StepKeepsTheIndexOnTheStore : Prop :=
  (∀ s t : State, s.sound = true → step s = .next t → t.sound = true) ∧
  ∀ s : State, s.sound = true →
    s.indexGood ∧
    (∀ (ch : Nat) (a : SlotAddr), s.position ch = some a →
      (s.seg a.seg).state = some .opened ∨ (s.seg a.seg).state = some .filled ∨ (s.seg a.seg).state = some .faulted) ∧
    (∀ g n : Nat, g < 32 → (s.seg g).fill = some n → n ≤ 64) ∧
    (∀ g n : Nat, g = 32 ∨ g = 33 → (s.seg g).fill = some n → n ≤ 16) ∧
    (∀ g n x : Nat, g < 32 → (s.seg g).state = some .opened → (s.seg g).fill = some n → n ≤ x → x < 64 → s.store.slot ⟨g, x⟩ = .blank) ∧
    (∀ g n : Nat, g < 32 → (s.seg g).inUse = some n →
      n ≤ 64 ∧
      ((∀ m, s.op ≠ .mount m) →
        (s.seg g).state = some .opened ∨ (s.seg g).state = some .filled ∨ (s.seg g).state = some .faulted →
        n = (List.range 64).countP (fun x => (s.store.slot ⟨g, x⟩).inUse))) ∧
    ∀ n : Nat, s.issue = some n → 1 ≤ n ∧ n ≤ 4294967295

/-! ## Supply and inputs -/

/-- LOSS_OF_POWER: every piece of volatile state is lost, the store keeps what the work cut short left (R181, R22); that the lost
state shows its reset values is log 4. POWER_ON after it: HELD with all volatile state at its reset value when RESET is asserted,
else the mount has begun; the store is kept (R181). RESET_ASSERTION takes the unit to HELD with every piece of volatile state at its
reset value; while HELD it has no further effect (R179). GUARD_RELEASE_CHANGE changes its level and nothing else (R177).
RESET_RELEASE from HELD begins the mount and leaves the FIFOs, the transmitters and the store as they stand (R180, R140); a HELD
unit's ingress FIFOs are empty, since it carries every arrival across at once. -/
def Obligations.SupplyResetAndGuardReleaseActAsTheRulesSay : Prop :=
  (∀ s : State, ∃ t, exec .lossOfPower s = .next t ∧ t.AtReset ∧ t.opState = .noPower ∧ t.store = s.cutShort ∧
    t.resetAsserted = s.resetAsserted ∧ t.guardRelease = s.guardRelease) ∧
  (∀ s : State, s.opState = .noPower → s.quietInside = true → s.suspended = none →
    ∃ t, exec .powerOn s = .next t ∧ t.store = s.store ∧ t.resetAsserted = s.resetAsserted ∧ t.guardRelease = s.guardRelease ∧
      (if s.resetAsserted then t.AtReset ∧ t.opState = .held else t.MountBegun)) ∧
  (∀ s : State, s.opState.linkUp = true →
    ∃ t, exec .resetAssertion s = .next t ∧ t.AtReset ∧ t.opState = .held ∧ t.resetAsserted = true ∧
      t.store = s.cutShort ∧ t.guardRelease = s.guardRelease) ∧
  (∀ s : State, s.opState = .held → s.resetAsserted = true → exec .resetAssertion s = .next s) ∧
  (∀ (b : Bool) (s : State), exec (.guardReleaseChange b) s = .next { s with guardRelease := b }) ∧
  ∀ s : State, s.opState = .held → s.quietInside = true → s.ingress = State.reset.ingress →
    ∃ t, exec .resetRelease s = .next t ∧ t.opState = .mounting ∧ t.op = .mount Mount.start ∧ t.resetAsserted = false ∧
      t.banks = { State.reset.banks with b0 := { BankUnit.reset with inFlight := some ⟨.header 0, .engine, false⟩ } } ∧
      t.store = s.store ∧ t.ingress = s.ingress ∧ SameEgress s t

/-- What the store holds after a reset or loss of power (R22, R79, R175): the slot of the program in progress, of a route segment or
of a configuration segment, and every slot of a route segment whose erase has begun, or of the target of a rotation erase, are
indeterminate; a header being stamped and that of such a segment read unstamped. Every other slot, configuration slot and header
keeps what it held; with no program and no erase in progress nothing changes. -/
def Obligations.WorkCutShortLeavesCellsIndeterminate : Prop :=
  (∀ (s : State) (p : Program) (a : SlotAddr) (w : SlotWrite), s.store.wf = true → s.program = some p → p.job = .slot a w →
    a.slot < 64 → s.cutShort.slot a = .indeterminate) ∧
  (∀ (s : State) (p : Program) (g n : Nat), s.store.wf = true → s.program = some p → p.job = .stamp g n →
    s.cutShort.header g = .unstamped) ∧
  (∀ (s : State) (p : Program) (a : SlotAddr), s.store.wf = true → s.program = some p →
    (∃ n v, p.job = .cfgRecord a n v) ∨ p.job = .cfgVoid a → s.cutShort.cfgSlot a = .indeterminate) ∧
  (∀ (s : State) (e : EraseRec) (a : SlotAddr), s.store.wf = true → s.op = .erase e ∨ s.suspended = some e →
    e.step ≠ .claimed → e.step ≠ .stamping → e.seg < 32 → a.seg = e.seg → a.slot < 64 →
    s.cutShort.slot a = .indeterminate ∧ s.cutShort.header e.seg = .unstamped) ∧
  (∀ (s : State) (w : ConfigWrite) (g : CfgSeg) (a : SlotAddr), s.store.wf = true → s.op = .configWrite w →
    w.step = .erasing ∨ w.step = .stopping → w.target = some g → a.seg = g.id → a.slot < 16 →
    s.cutShort.cfgSlot a = .indeterminate ∧ s.cutShort.header g.id = .unstamped) ∧
  (∀ s : State, s.store.wf = true →
    (∀ (p : Program) (x : SlotAddr) (w : SlotWrite), s.program = some p → p.job = .slot x w → x.slot < 64) →
    (∀ (p : Program) (x : SlotAddr), s.program = some p → (∃ n v, p.job = .cfgRecord x n v) ∨ p.job = .cfgVoid x →
      (x.seg = 32 ∨ x.seg = 33) ∧ x.slot < 16) →
    (∀ e : EraseRec, s.op = .erase e ∨ s.suspended = some e → e.seg < 32) →
    let erased := fun g : Nat =>
      (∃ e : EraseRec, (s.op = .erase e ∨ s.suspended = some e) ∧ e.step ≠ .claimed ∧ e.step ≠ .stamping ∧ e.seg = g) ∨
        ∃ (w : ConfigWrite) (c : CfgSeg), s.op = .configWrite w ∧ (w.step = .erasing ∨ w.step = .stopping) ∧ w.target = some c ∧
          c.id = g
    (∀ a : SlotAddr, a.slot < 64 → ¬ erased a.seg → (∀ (p : Program) (w : SlotWrite), s.program = some p → p.job ≠ .slot a w) →
      s.cutShort.slot a = s.store.slot a) ∧
    (∀ a : SlotAddr, a.seg = 32 ∨ a.seg = 33 → a.slot < 16 → ¬ erased a.seg →
      (∀ p : Program, s.program = some p → p.job ≠ .cfgVoid a ∧ ∀ n v, p.job ≠ .cfgRecord a n v) →
      s.cutShort.cfgSlot a = s.store.cfgSlot a) ∧
    ∀ g : Nat, ¬ erased g → (∀ (p : Program) (n : Nat), s.program = some p → p.job ≠ .stamp g n) →
      s.cutShort.header g = s.store.header g) ∧
  ∀ s : State, s.program = none → s.suspended = none → (∀ e, s.op ≠ .erase e) → (∀ w, s.op ≠ .configWrite w) →
    s.cutShort = s.store

/-! ## Frames, layouts, egress, replies and the Fault List -/

/-- Frames (R196, R197, R198, R134, Tables 11-1 and 11-2). The check word is computed bit by bit over the bytes before it; a frame
passes its test when it has at least 5 bytes and the last two are that word, and breaks no format condition when its channel lies in
0..4095, its length byte in 0..240 and names its payload, and a frame of channel 0 has 6 payload bytes at least. Every frame that
the unit builds passes both and reads back as it was built: its channel, its payload, and the fields of a reply; a copy with another
channel keeps the payload. -/
def Obligations.FramesCarryTheirCheckWord : Prop :=
  (let bit : BitVec 16 → Bool → BitVec 16 := fun r x => if x = r.getLsbD 15 then r <<< 1 else (r <<< 1) ^^^ 0x1021#16
   checkWord [] = 0xFFFF#16 ∧
   ∀ (bytes : List Byte) (b : Byte), checkWord (bytes ++ [b]) =
     bit (bit (bit (bit (bit (bit (bit (bit (checkWord bytes) (b.getLsbD 7)) (b.getLsbD 6)) (b.getLsbD 5)) (b.getLsbD 4))
       (b.getLsbD 3)) (b.getLsbD 2)) (b.getLsbD 1)) (b.getLsbD 0)) ∧
  (∀ bytes : List Byte, withCheck bytes = bytes ++ byte2 (checkWord bytes).toNat) ∧
  (∀ f : Frame, checkGood f = true ↔
    5 ≤ f.length ∧ ∃ (body : List Byte) (hi lo : Byte), f = body ++ [hi, lo] ∧ hi.toNat * 256 + lo.toNat = (checkWord body).toNat) ∧
  (∀ (hi lo n : Byte) (rest : List Byte),
    let f : Frame := hi :: lo :: n :: rest
    frameChannelField f = hi.toNat * 256 + lo.toNat ∧
    (formatGood f = true ↔
      hi.toNat < 16 ∧ n.toNat ≤ 240 ∧ f.length = n.toNat + 5 ∧ ¬ (hi = 0 ∧ lo = 0 ∧ n.toNat < 6)) ∧
    (formatGood f = true → framePayload f = rest.take n.toNat)) ∧
  (∀ (ch : Nat) (payload : List Byte), ch ≤ 4095 → payload.length ≤ 240 → (ch = 0 → 6 ≤ payload.length) →
    let f := buildFrame ch payload
    checkGood f = true ∧ formatGood f = true ∧ frameChannelField f = ch ∧ framePayload f = payload ∧
      f.length = payload.length + 5) ∧
  (∀ (station : Nat) (tag kind status : Byte) (results : List Byte), station ≤ 65535 → results.length ≤ 234 →
    let f := replyFrame station tag kind status results
    checkGood f = true ∧ formatGood f = true ∧ frameChannelField f = 0 ∧
      framePayload f = byte2 station ++ [0x80, tag, kind, status] ++ results ∧
      managementFields (framePayload f) = ⟨station, true, tag, kind, results⟩) ∧
  (∀ (stHi stLo control tag kind status : Byte) (params : List Byte),
    managementFields (stHi :: stLo :: control :: tag :: kind :: status :: params) =
      ⟨stHi.toNat * 256 + stLo.toNat, control.getLsbD 7, tag, kind, params⟩) ∧
  ∀ (ch : Nat) (f : Frame), 1 ≤ ch → ch ≤ 4095 → 5 ≤ f.length → formatGood f = true →
    checkGood (rewriteChannel ch f) = true ∧ formatGood (rewriteChannel ch f) = true ∧
      frameChannelField (rewriteChannel ch f) = ch ∧ framePayload (rewriteChannel ch f) = framePayload f

/-- The bytes of the results in replies (R199, Tables 11-6 to 11-9, 11-13): fields of two and four bytes most significant byte
first, every code by its table, and every field that a reply does not carry sent as its absent value (0xFF for a segment id, a slot
and a one-byte count or code without a 0 meaning, else zero). The absent values of the one-byte counts are the model's reading (log
14). -/
def Obligations.ReplyLayoutsFollowTheTables : Prop :=
  let b1 : Nat → List Byte := fun n => [BitVec.ofNat 8 n]
  let b2 : Nat → List Byte := fun n => [BitVec.ofNat 8 (n / 256), BitVec.ofNat 8 n]
  let b4 : Nat → List Byte := fun n =>
    [BitVec.ofNat 8 (n / 16777216), BitVec.ofNat 8 (n / 65536), BitVec.ofNat 8 (n / 256), BitVec.ofNat 8 n]
  let causeByte : Option FailureCause → List Byte := fun c =>
    match c with
    | some .eraseTimeout => [0x06]
    | some .stampFault => [0x07]
    | some .write => [0x0C]
    | none => [0xFF]
  let fault : FaultKind → Byte := fun k =>
    match k with
    | .writeFault => 0x01
    | .sealFault => 0x02
    | .promoteFault => 0x03
    | .retireFault => 0x04
    | .voidFault => 0x05
    | .eraseTimeout => 0x06
    | .stampFault => 0x07
    | .eraseAborted => 0x08
    | .configFault => 0x09
    | .stageExpired => 0x0A
    | .mountRepair => 0x0B
  (∀ n : Nat, byte1 n = b1 n ∧ byte2 n = b2 n ∧ byte4 n = b4 n) ∧
  (∀ a : SlotAddr, positionBytes (some a) = b1 a.seg ++ b1 a.slot) ∧ positionBytes none = [0xFF, 0xFF] ∧
  (∀ r : FaultRecord, faultBytes r =
    [fault r.kind] ++ b1 (r.seg.getD 0xFF) ++ b1 (r.slot.getD 0xFF) ++ b2 (r.channel.getD 0) ++ b4 (r.issue.getD 0) ++
      (match r.origin with
       | some ⟨.east, tag⟩ => [1, tag]
       | some ⟨.west, tag⟩ => [2, tag]
       | some ⟨.tap, tag⟩ => [3, tag]
       | none => [0, 0])) ∧
  (∀ r : EraseResult, eraseResultBytes r =
    b1 r.seg ++ causeByte r.cause ++ b4 (r.erases.getD 0) ++ b2 (r.activeUs.getD 0 / 1000) ++ b2 (r.suspensions.getD 0) ++
      b1 (r.inUse.getD 0xFF)) ∧
  (∀ r : ReclaimResult, reclaimResultBytes r =
    b1 r.seg ++
      (match r.state with
       | some .clean => [1]
       | some .opened => [2]
       | some .filled => [3]
       | some .faulted => [4]
       | some .erasing => [5]
       | some .torn => [6]
       | none => [0xFF]) ++
      (match r.tallies with
       | some t => b2 t.moved ++ b2 t.skipped ++ b1 t.sealed ++ b2 t.settleFaulted
       | none => [0, 0, 0, 0, 0xFF, 0, 0]) ++
      causeByte r.cause ++ b4 (r.erases.getD 0) ++ b1 (r.inUse.getD 0xFF) ++ b1 (r.needed.getD 0xFF) ++ b4 (r.failedIssue.getD 0) ++
      b1 (r.failedSeg.getD 0xFF)) ∧
  (∀ r : SetConfigResult, setConfigResultBytes r =
    b4 (r.issue.getD 0) ++ b1 (r.seg.getD 0xFF) ++ b1 (r.slot.getD 0xFF) ++ [if r.rotated = true then 1 else 0] ++ causeByte r.cause ++
      b4 (r.erases.getD 0) ++ b1 (r.voidFails.getD 0xFF) ++ b1 (r.field.getD 0xFF) ++ b2 (r.guardLow.getD 0) ++
      b2 (r.guardHigh.getD 0)) ∧
  (∀ es : List Entry, settleItems es [] = []) ∧ (∀ fs : List (List FaultKind), settleItems [] fs = []) ∧
  (∀ (e : Entry) (es : List Entry) (f : List FaultKind) (fs : List (List FaultKind)), f.length ≤ 4 →
    settleItems (e :: es) (f :: fs) =
      (if f = [] then settleItems es fs
       else (b2 e.channel ++ [if FaultKind.promoteFault ∈ f then 2 else 1] ++ b1 f.length ++ f.map fault ++
         List.replicate (4 - f.length) 0) :: settleItems es fs)) ∧
  readResultBytes .marginFail = [0x02] ∧ readResultBytes .unreadable = [0x03] ∧
  readResultBytes .blank = 0x01 :: 0x00 :: List.replicate 12 0 ∧ readResultBytes .void = 0x01 :: 0xFF :: List.replicate 12 0 ∧
  ∀ (st : RecState) (n : Nat),
    let stateByte : Byte :=
      match st with
      | .pending => 1
      | .live => 2
      | .retired => 3
    (∀ count : Nat, readResultBytes (.record ⟨st, n, .seal count⟩) = [0x01, stateByte, 3] ++ b4 n ++ b1 count ++ [0, 0, 0, 0, 0, 0]) ∧
    (∀ ch : Nat, readResultBytes (.record ⟨st, n, .entry ⟨ch, .withdraw⟩⟩) =
      [0x01, stateByte, 2] ++ b4 n ++ b2 ch ++ [0, 0, 0, 0, 0]) ∧
    ∀ (ch : Nat) (f : RouteFields), readResultBytes (.record ⟨st, n, .entry ⟨ch, .route f⟩⟩) =
      [0x01, stateByte, 1] ++ b4 n ++ b2 ch ++
        b1 ((if f.accept.east = true then 1 else 0) + (if f.accept.west = true then 2 else 0) + (if f.accept.tap = true then 4 else 0)) ++
        (match f.action with
         | .pass => [1]
         | .deliver => [2]
         | .passAndDeliver => [3]
         | .discard => [4]) ++
        b2 (f.outChannel.getD 0) ++
        (match f.tapSide with
         | some .east => [1]
         | some .west => [2]
         | none => [0])

/-- The images of a STAGE and of a SET CONFIG (R35, R36, R167, R199, Tables 11-8 and 11-10). The eight bytes of an entry image give
a ROUTE or a WITHDRAW exactly when they are well formed; the images of a STAGE lie one after the other behind its count; the first
image that is not well formed, or the first whose channel stands in an earlier image or in the buffer, gives its position from 1. A
configuration image is a record, or the number of its first failing field in the order of Table 9-1. -/
def Obligations.ImagesAreReadAsTheTablesSay : Prop :=
  (∀ bytes : List Byte, bytes.length ≠ 8 → entryOf bytes = none) ∧
  (∀ kind chHi chLo accept action outHi outLo side : Byte,
    let image := [kind, chHi, chLo, accept, action, outHi, outLo, side]
    let field := chHi.toNat * 256 + chLo.toNat
    let out := outHi.toNat * 256 + outLo.toNat
    let sided := accept.getLsbD 2 = true ∧ (action = 1 ∨ action = 3)
    (∀ (ch : Nat) (f : RouteFields), entryOf image = some ⟨ch, .route f⟩ ↔
      kind = 1 ∧ ch = field ∧ 1 ≤ field ∧ field ≤ 4095 ∧ accept ≠ 0 ∧ accept.toNat ≤ 7 ∧ out ≤ 4095 ∧
      f.accept = ⟨accept.getLsbD 0, accept.getLsbD 1, accept.getLsbD 2⟩ ∧
      ((action = 1 ∧ f.action = .pass) ∨ (action = 2 ∧ f.action = .deliver) ∨ (action = 3 ∧ f.action = .passAndDeliver) ∨
        (action = 4 ∧ f.action = .discard)) ∧
      f.outChannel = (if out = 0 then none else some out) ∧
      ((sided ∧ ((side = 1 ∧ f.tapSide = some .east) ∨ (side = 2 ∧ f.tapSide = some .west))) ∨
        (¬ sided ∧ side = 0 ∧ f.tapSide = none))) ∧
    ∀ ch : Nat, entryOf image = some ⟨ch, .withdraw⟩ ↔
      kind = 2 ∧ ch = field ∧ 1 ≤ field ∧ field ≤ 4095 ∧ accept = 0 ∧ action = 0 ∧ outHi = 0 ∧ outLo = 0 ∧ side = 0) ∧
  (∀ (n : Nat) (bytes : List Byte), bytes.length = 8 * n →
    (imagesOf n bytes).length = n ∧ (imagesOf n bytes).flatten = bytes ∧ ∀ x ∈ imagesOf n bytes, x.length = 8) ∧
  (∀ images : List (List Byte),
    (∀ es : List Entry, entriesOf 1 images = .ok es ↔ images.map entryOf = es.map some) ∧
    ∀ n : Nat, entriesOf 1 images = .error n ↔
      ∃ (before after : List (List Byte)) (image : List Byte), images = before ++ image :: after ∧ n = before.length + 1 ∧
        entryOf image = none ∧ ∀ x ∈ before, entryOf x ≠ none) ∧
  (∀ (seen : List Nat) (es : List Entry),
    (firstDuplicate 1 seen es = none ↔ (es.map Entry.channel).Nodup ∧ ∀ e ∈ es, e.channel ∉ seen) ∧
    ∀ n : Nat, firstDuplicate 1 seen es = some n ↔
      ∃ (before after : List Entry) (e : Entry), es = before ++ e :: after ∧ n = before.length + 1 ∧
        (e.channel ∈ seen ∨ e.channel ∈ before.map Entry.channel) ∧ (before.map Entry.channel).Nodup ∧
        ∀ x ∈ before, x.channel ∉ seen) ∧
  (∀ bytes : List Byte, bytes.length ≠ 9 → configImageOf bytes = none) ∧
  (∀ stHi stLo hold noRoute loHi loLo hiHi hiLo start : Byte,
    configImageOf [stHi, stLo, hold, noRoute, loHi, loLo, hiHi, hiLo, start] =
      some ⟨stHi.toNat * 256 + stLo.toNat, hold.toNat, noRoute.toNat, loHi.toNat * 256 + loLo.toNat, hiHi.toNat * 256 + hiLo.toNat,
        start.toNat⟩) ∧
  ∀ i : ConfigImage, configOfImage i =
    (if 65535 ≤ i.station then .error 1
     else if i.holdLimit = 0 ∨ 255 < i.holdLimit then .error 2
     else if i.noRoute ≠ 1 ∧ i.noRoute ≠ 2 then .error 3
     else if i.guardLow = 0 ∨ 4095 < i.guardLow ∨ 4095 < i.guardHigh then .error 4
     else if i.startMode ≠ 1 ∧ i.startMode ≠ 2 then .error 5
     else
      .ok ⟨i.station, i.holdLimit, if i.noRoute = 1 then .discard else .deliver, i.guardLow, i.guardHigh,
        if i.startMode = 1 then .run else .bypass⟩)

/-- A copy placed in a traffic FIFO or in the delivery FIFO, a frame carried across while HELD, a reply placed on a reply path
(R135, R136, R137, R140): an idle transmitter starts it, else it waits at the tail of its FIFO, and a full FIFO loses it and counts
it, but for a frame carried across, which is dropped without a count. -/
def Obligations.EgressFifosTakeFramesUpToTheirCapacity : Prop :=
  ∀ s : State, s.sendersBusy = true →
    (∀ (l : Line) (f : Frame), s.placeTraffic l f =
      (if s.lineTx.get l = none then { s with lineTx := s.lineTx.set l (some ⟨f, false⟩) }
       else if (s.traffic.get l).length < 16 then { s with traffic := s.traffic.set l (s.traffic.get l ++ [f]) }
       else s.count (linePort l) .egressFull)) ∧
    (∀ (l : Line) (f : Frame), s.carryTraffic l f =
      (if s.lineTx.get l = none then { s with lineTx := s.lineTx.set l (some ⟨f, false⟩) }
       else if (s.traffic.get l).length < 16 then { s with traffic := s.traffic.set l (s.traffic.get l ++ [f]) }
       else s)) ∧
    (∀ f : Frame, s.placeDelivery f =
      (if s.tapTx = none then { s with tapTx := some ⟨f, false⟩ }
       else if s.delivery.length < 32 then { s with delivery := s.delivery ++ [⟨f, false⟩] }
       else s.count .tap .egressFull)) ∧
    (∀ (l : Line) (o : Outgoing), s.placeReply (linePort l) o =
      (if s.lineTx.get l = none then { s with lineTx := s.lineTx.set l (some o) }
       else if (s.replies.get l).length < 4 then { s with replies := s.replies.set l (s.replies.get l ++ [o]) }
       else s.count (linePort l) .replyLost)) ∧
    ∀ o : Outgoing, s.placeReply .tap o =
      (if s.tapTx = none then { s with tapTx := some o }
       else if s.delivery.length < 32 then { s with delivery := s.delivery ++ [o] }
       else s.count .tap .replyLost)

/-- The codes of request kinds and statuses are those of Tables 11-3 and 11-4. A reply carries the station in force, the reply flag,
the tag, kind, status and results of its request (R155, R198), goes to its request's port, and replaces the port's reply memory when
its kind is state-changing and its status none of QUEUE_FULL, NOT_RUNNING, BANK_BUSY and IN_PROGRESS (R156). A fault record is
appended at the tail; when the list holds 8, the oldest is removed and the overflow count increases by one, unless it stands at 255
(R119). -/
def Obligations.RepliesAndFaultRecordsAreKept : Prop :=
  (let kinds : List (ReqKind × Byte) :=
     [(.status, 0x01), (.describe, 0x02), (.readSlot, 0x03), (.readIndex, 0x04), (.readCounters, 0x05), (.readFaults, 0x06),
       (.readConfig, 0x07), (.clearFaults, 0x10), (.stage, 0x11), (.unstage, 0x12), (.abandon, 0x13), (.setMode, 0x14),
       (.commit, 0x20), (.erase, 0x21), (.reclaim, 0x22), (.setConfig, 0x23), (.restart, 0x24)]
   (∀ (k : ReqKind) (b : Byte), k.code = b ↔ (k, b) ∈ kinds) ∧ ∀ (b : Byte) (k : ReqKind), kindOf b = some k ↔ (k, b) ∈ kinds) ∧
  (let statuses : List (Status × Byte) :=
     [(.done, 0x00), (.inProgress, 0x01), (.queueFull, 0x02), (.notRunning, 0x03), (.badRequest, 0x04), (.badEntry, 0x05),
       (.stageOwned, 0x06), (.stageFull, 0x07), (.stageEmpty, 0x08), (.duplicateChannel, 0x09), (.guarded, 0x0A), (.noSpace, 0x0B),
       (.issueExhausted, 0x0C), (.segmentInUse, 0x0D), (.segmentState, 0x0E), (.worn, 0x0F), (.bankBusy, 0x10), (.writeFault, 0x11),
       (.sealFault, 0x12), (.settleFault, 0x13), (.eraseFault, 0x14), (.configFault, 0x15), (.abandoned, 0x16), (.cancelled, 0x17),
       (.notFound, 0x18), (.notCancellable, 0x19)]
   ∀ (st : Status) (b : Byte), st.code = b ↔ (st, b) ∈ statuses) ∧
  (∀ (s : State) (o : Origin) (kind status : Byte) (rs : List Byte) (awaited : Bool),
    s.emitReply o kind status rs awaited =
      s.placeReply o.port ⟨buildFrame 0 (byte2 s.config.values.station ++ [0x80, o.tag, kind, status] ++ rs), awaited⟩) ∧
  (∀ (s : State) (o : Origin) (k : ReqKind) (st : Status) (rs : List Byte),
    let r : Outgoing := ⟨buildFrame 0 (byte2 s.config.values.station ++ [0x80, o.tag, k.code, st.code] ++ rs), false⟩
    s.replyRead o k.code st rs = s.placeReply o.port r ∧
    s.replyStored o k st rs =
      (if st = .queueFull ∨ st = .notRunning ∨ st = .bankBusy ∨ st = .inProgress then s.placeReply o.port r
       else ({ s with memory := s.memory.set o.port (some ⟨o.tag, k.code, st.code, rs⟩) } : State).placeReply o.port r)) ∧
  ∀ (s : State) (r : FaultRecord),
    (s.faults.length < 8 → s.addFault r = { s with faults := s.faults ++ [r] }) ∧
    (∀ (x : FaultRecord) (xs : List FaultRecord), s.faults = x :: xs → xs.length = 7 →
      s.addFault r = { s with faults := xs ++ [r], overflow := if s.overflow < 255 then s.overflow + 1 else s.overflow })

/-- What the end of an event does. While a lookup stage is IDLE with a frame in its ingress FIFO it takes the oldest (R125, R138),
which leaves the FIFO and is handled under the operating state that stands, as an arrival at an idle stage is (R126 to R129, R139,
R140); a suspension reason that has appeared is taken up before (R72, R73). Of several such stages EAST is the first and WEST the
next: the model's choice (log 11). With no such stage the route erase is examined: with no route erase current nothing; a reason
that stands for a RUNNING erase is taken up at once, and a SUSPENDED erase whose resume condition holds claims its bank (R72, R73,
R75). That the examination stands before each head and at the end of the event is the model's choice (log 10). -/
def Obligations.EndOfAnEventTakesHeadsAndExaminesTheErase : Prop :=
  (∀ s : State,
    let waits := fun p : Port => s.stages.get p = .idle ∧ s.ingress.get p ≠ []
    (s.nextTaker = some .east ↔ waits .east) ∧ (s.nextTaker = some .west ↔ waits .west ∧ ¬ waits .east) ∧
      (s.nextTaker = some .tap ↔ waits .tap ∧ ¬ waits .east ∧ ¬ waits .west) ∧
      (s.drained = true ↔ ¬ waits .east ∧ ¬ waits .west ∧ ¬ waits .tap)) ∧
  (∀ (s : State) (p : Port) (f : Frame) (rest : List Frame), s.nextTaker = some p → s.ingress.get p = f :: rest →
    let u : State := { s.examineReasons with ingress := s.ingress.set p rest }
    let good := checkGood f = true ∧ formatGood f = true
    s.settle =
      (match s.opState with
       | .running =>
         if checkGood f = false then u.count p .check
         else if formatGood f = false then u.count p .format
         else if frameChannelField f = 0 then u.handOff p f .mgmtPassed
         else
           match u.position (frameChannelField f) with
           | none =>
             if u.config.values.noRoute = NoRouteAction.deliver ∧ p ≠ Port.tap then (u.placeDelivery f).count p .delivered else u.count p .noRoute
           | some a => u.requestRead p ⟨f, true, 0, a, false⟩ a
       | .held =>
         match oppositeLine p with
         | some l => u.carryTraffic l f
         | none => u
       | .noPower => u
       | _ =>
         if frameChannelField f = 0 ∧ good then u.handOff p f .bypassed
         else
           match oppositeLine p with
           | some l => (u.placeTraffic l f).count p .bypassed
           | none => u.count p .tapIdle).settle) ∧
  ((∀ (s : State) (e : EraseRec), s.op = .erase e → e.step = .running → s.examineReasons = s.examineErase) ∧
    ∀ s : State, (∀ e, s.op = .erase e → e.step ≠ .running) → s.examineReasons = s) ∧
  (∀ s : State, s.drained = true → s.settle = s.examineErase) ∧
  (∀ s : State, (∀ e, s.op ≠ .erase e) → s.examineErase = s) ∧
  ∀ (s : State) (e : EraseRec), s.op = .erase e →
    (e.step = .running →
      ((s.bank (bankOf e.seg)).queue = [] ∧ s.urgentHead = false → s.examineErase = s) ∧
      ((s.bank (bankOf e.seg)).queue ≠ [] ∨ s.urgentHead = true →
        s.examineErase =
          ({ s with op := .erase { e with step := if e.runTimer then .waiting else .suspending } } : State).setBank (bankOf e.seg)
            { s.bank (bankOf e.seg) with state := .suspendWait })) ∧
    (e.step = .suspended →
      s.examineErase =
        (if (s.bank (bankOf e.seg)).queue = [] ∧ (s.bank (bankOf e.seg)).inFlight = none ∧ s.urgentHead = false ∧ e.held = [] then
          s.makeClaim (bankOf e.seg) (.resume e.seg)
         else s)) ∧
    (e.step ≠ .running → e.step ≠ .suspended → s.examineErase = s)

/-! ## Requests: the screens of dispatch, the read kinds, the Fault List -/

/-- A request outside MOUNTING, RUNNING and BYPASS is not received; in MOUNTING every kind but STATUS is refused NOT_RUNNING; a
request in progress is answered IN_PROGRESS; a state-changing kind whose tag stands in reply memory is answered with the stored
reply; parameters of another length than the kind's are refused BAD_REQUEST (R145, R149 to R152). In progress are the requests in
the queue, that of the current operation, that of the suspended-erase record, and a READ SLOT whose read is in flight (R150); the
state-changing kinds are those of R151; the lengths are those of Table 11-5. -/
def Obligations.DispatchScreensAnswerWithoutCarryingOut : Prop :=
  (∀ x : OpState, x.linkUp = true ↔ x = .mounting ∨ x = .running ∨ x = .bypass) ∧
  (∀ (s : State) (o : Origin), s.inProgress o = true ↔
    (∃ q ∈ s.queue, q.origin = o) ∨
      ((∃ b, s.op = .commit b ∧ b.origin = o) ∨ (∃ e, s.op = .erase e ∧ e.origin = o) ∨ (∃ r, s.op = .reclaim r ∧ r.origin = o) ∨
        (∃ w, s.op = .configWrite w ∧ w.origin = o) ∨ ∃ r, s.op = .restart r ∧ r.origin = o) ∨
      (∃ e : EraseRec, s.suspended = some e ∧ e.origin = o) ∨
      ∃ (b : Bank) (x : ReadTarget) (counted : Bool), (s.bank b).inFlight = some ⟨x, .readSlot o, counted⟩) ∧
  (∀ (k : ReqKind) (ps : List Byte), stateChanging k ps = true ↔
    k ∈ [ReqKind.clearFaults, .stage, .unstage, .abandon, .setMode, .commit, .erase, .reclaim, .setConfig, .restart] ∨
      (k = .readCounters ∧ ∃ port : Byte, ps = [port, 0x01])) ∧
  (∀ (s : State) (o : Origin) (m : StoredReply), s.storedReply o = some m ↔ s.memory.get o.port = some m ∧ m.tag = o.tag) ∧
  (∀ (k : ReqKind) (ps : List Byte), lengthGood k ps = true ↔
    (k ∈ [ReqKind.status, .describe, .readFaults, .readConfig, .clearFaults, .unstage, .commit, .restart] ∧ ps.length = 0) ∨
      (k ∈ [ReqKind.readSlot, .readCounters] ∧ ps.length = 2) ∨ (k = .readIndex ∧ ps.length = 3) ∨
      (k = .stage ∧ ∃ (n : Byte) (images : List Byte), ps = n :: images ∧ ps.length = 1 + 8 * n.toNat) ∨
      (k ∈ [ReqKind.abandon, .setMode, .erase, .reclaim] ∧ ps.length = 1) ∨ (k = .setConfig ∧ ps.length = 9)) ∧
  ∀ (c : Instr) (k : ReqKind) (o : Origin) (ps : List Byte) (s : State), requestOf c = some (k, o, ps) → s.drained = true →
    (s.opState.linkUp = false → exec c s = .next s) ∧
    (s.opState = .mounting → k ≠ .status → exec c s = .next (s.replyRead o k.code .notRunning []).examineErase) ∧
    (s.opState.linkUp = true → (s.opState = .mounting → k = .status) →
      (s.inProgress o = true → exec c s = .next (s.replyRead o k.code .inProgress []).examineErase) ∧
      (s.inProgress o = false → stateChanging k ps = true →
        (∀ m, s.storedReply o = some m → exec c s = .next (s.emitReply o m.kind m.status m.results false).examineErase) ∧
        (s.storedReply o = none → lengthGood k ps = false → exec c s = .next (s.replyStored o k .badRequest []).examineErase)) ∧
      (s.inProgress o = false → stateChanging k ps = false → lengthGood k ps = false →
        exec c s = .next (s.replyRead o k.code .badRequest []).examineErase))

/-- STATUS is answered DONE in MOUNTING, RUNNING and BYPASS with the contents of Table 8-3 in the 23 bytes of Table 11-11, all as
they stand at the event; DESCRIBE with the 26 bytes of Table 11-12, the same at every DESCRIBE, READ_CONFIG and READ_COUNTERS with
their results; these change nothing (R159 to R161, R165, R143). A port byte that is no port code, or a second byte that is neither
0x00 nor 0x01, is a BAD_REQUEST. READ_COUNTERS_WITH_CLEAR reports the counters of the port named, which become 0 at the same event;
every other port's stand. -/
def Obligations.StatusDescriptionConfigAndCountersAreReported : Prop :=
  (∀ (s : State) (p : Port) (tag : Byte), s.drained = true → s.opState.linkUp = true → s.inProgress ⟨p, tag⟩ = false →
    let port : Option Port → List Byte := fun x => match x with
      | some .east => [1]
      | some .west => [2]
      | some .tap => [3]
      | none => [0]
    let step : EraseRec → Byte := fun e => match e.step with
      | .claimed => 1
      | .running => 2
      | .waiting => 3
      | .suspending => 4
      | .suspended => 5
      | .stopping _ => 6
      | .stamping => 7
    let segments : SegState → List Byte := fun x =>
      if (s.seg 0).state = none then [0xFF] else byte1 ((List.range 32).countP (fun g => decide ((s.seg g).state = some x)))
    exec (.status p tag []) s =
      .next (s.replyRead ⟨p, tag⟩ 0x01 .done
        ((match s.opState with
          | .mounting => [1]
          | .running => [2]
          | _ => [3] : List Byte) ++
         (match s.op with
          | .idle => [0, 0xFF]
          | .mount m =>
            [1, match m.phase with
              | .headerScan => 1
              | .slotScan => 2
              | .resolve => 3
              | .repair => 4
              | .enter => 5]
          | .commit b =>
            [2, match b.phase with
              | .write => 1
              | .seal => 2
              | .settle => 3]
          | .erase e => [if e.reclaim = none then 3 else 4, step e]
          | .reclaim _ => [4, 8]
          | .configWrite w => [5, if w.step = .writing ∨ w.step = .voiding then 2 else 1]
          | .restart _ => [6, 0xFF] : List Byte) ++
         port (s.op.origin?.map Origin.port) ++ [(s.op.origin?.map Origin.tag).getD 0] ++
         (match s.suspended with
          | some e => byte1 e.seg
          | none => [0xFF] : List Byte) ++
         byte1 s.queue.length ++ byte1 s.staging.entries.length ++ port s.staging.owner ++
         (match s.openSeg with
          | some g => byte1 g
          | none => [0xFF] : List Byte) ++
         segments .clean ++ segments .opened ++ segments .filled ++ segments .faulted ++ segments .erasing ++ segments .torn ++
         byte1 s.faults.length ++ byte1 s.overflow ++ byte4 (s.issue.getD 0) ++ ([if s.guardRelease = true then 1 else 0] : List Byte))).examineErase) ∧
  (∃ (revision : Nat) (serial : BitVec 32), 1 ≤ revision ∧ revision ≤ 15 ∧
    ∀ (s : State) (p : Port) (tag : Byte), s.drained = true → s.admitsRead ⟨p, tag⟩ = true →
      exec (.describe p tag []) s =
        .next (s.replyRead ⟨p, tag⟩ 0x02 .done
          (([0x3C, 0x10, 0x18] : List Byte) ++ byte1 revision ++ byte4 serial.toNat ++
            [4, 8, 64, 2, 16, 16, 8, 8, 8, 240, 0, 150, 0, 80, 0x01, 0x2C, 0x05, 0xDC])).examineErase) ∧
  (∀ (s : State) (p : Port) (tag : Byte), s.drained = true → s.admitsRead ⟨p, tag⟩ = true →
    exec (.readConfig p tag []) s =
      .next (s.replyRead ⟨p, tag⟩ 0x07 .done
        (byte2 s.config.values.station ++ byte1 s.config.values.holdLimit ++
          ([match s.config.values.noRoute with
            | .discard => 1
            | .deliver => 2] : List Byte) ++
          byte2 s.config.values.guardLow ++ byte2 s.config.values.guardHigh ++
          ([match s.config.values.startMode with
            | .run => 1
            | .bypass => 2] : List Byte) ++
          match s.config.source with
          | some c => [0] ++ byte4 c.issue ++ byte1 c.addr.seg ++ byte1 c.addr.slot
          | none => [1, 0, 0, 0, 0, 0xFF, 0xFF])).examineErase ∧
    ∀ named flag : Byte, flag ≠ 1 →
      exec (.readCounters p tag [named, flag]) s =
        .next (match portOf named with
          | some q =>
            if flag = 0 then
              s.replyRead ⟨p, tag⟩ 0x05 .done ([named, 0] ++ ((s.counters.get q).toList.map byte4).flatten)
            else s.replyRead ⟨p, tag⟩ 0x05 .badRequest []
          | none => s.replyRead ⟨p, tag⟩ 0x05 .badRequest []).examineErase) ∧
  (∀ (b : Byte) (q : Port), portOf b = some q ↔ (b = 1 ∧ q = .east) ∨ (b = 2 ∧ q = .west) ∨ (b = 3 ∧ q = .tap)) ∧
  Counters.zero.toList = List.replicate 18 0 ∧
  (∀ c : Counters, c.toList =
    [c.received, c.check, c.format, c.ingressFull, c.noRoute, c.notAccepted, c.holdExpired, c.stale, c.discarded, c.noDeliverToSelf,
      c.passed, c.delivered, c.mgmtConsumed, c.mgmtPassed, c.bypassed, c.tapIdle, c.egressFull, c.replyLost]) ∧
  ∀ (s : State) (p : Port) (tag named : Byte), s.drained = true → s.admits ⟨p, tag⟩ = true →
    exec (.readCountersWithClear p tag named) s =
      .next (match portOf named with
        | some q =>
          ({ s with counters := s.counters.set q Counters.zero } : State).replyStored ⟨p, tag⟩ .readCounters .done
            ([named, 1] ++ ((s.counters.get q).toList.map byte4).flatten)
        | none => s.replyStored ⟨p, tag⟩ .readCounters .badRequest []).examineErase

/-- READ_INDEX (R31): DONE when the run lies in 1..4095 with a count of 1..32, with the positions of the run in increasing order as
they stand at the event (R32), else BAD_REQUEST; NOT_RUNNING while MOUNTING. -/
def Obligations.ReadIndexAnswersRunsInsideTheTable : Prop :=
  ∀ (s : State) (p : Port) (tag hi lo n : Byte), s.drained = true →
    (s.opState = .mounting →
      exec (.readIndex p tag [hi, lo, n]) s = .next (s.replyRead ⟨p, tag⟩ 0x04 .notRunning []).examineErase) ∧
    (s.admitsRead ⟨p, tag⟩ = true →
      let first := hi.toNat * 256 + lo.toNat
      exec (.readIndex p tag [hi, lo, n]) s =
        .next (if 1 ≤ first ∧ first ≤ 4095 ∧ 1 ≤ n.toNat ∧ n.toNat ≤ 32 ∧ first + n.toNat - 1 ≤ 4095 then
            s.replyRead ⟨p, tag⟩ 0x04 .done
              ([hi, lo, n] ++ ((List.range n.toNat).map (fun i => positionBytes (s.position (first + i)))).flatten)
          else s.replyRead ⟨p, tag⟩ 0x04 .badRequest []).examineErase)

/-- READ_FAULTS (R121): DONE with the number of records, the overflow count and the records oldest first, in RUNNING and BYPASS;
NOT_RUNNING while MOUNTING; it changes nothing. CLEAR_FAULTS (R122): the list becomes empty and the overflow count 0; the reply,
kept in reply memory, carries what stood just before; a repeat with the same tag is answered with the stored reply and leaves the
list as it is. -/
def Obligations.ReadFaultsReportsAndClearFaultsEmpties : Prop :=
  ∀ (s : State) (p : Port) (tag : Byte), s.drained = true →
    (s.opState = .mounting →
      exec (.readFaults p tag []) s = .next (s.replyRead ⟨p, tag⟩ 0x06 .notRunning []).examineErase) ∧
    (s.admitsRead ⟨p, tag⟩ = true →
      exec (.readFaults p tag []) s =
        .next (s.replyRead ⟨p, tag⟩ 0x06 .done
          (byte1 s.faults.length ++ byte1 s.overflow ++ (s.faults.map faultBytes).flatten)).examineErase) ∧
    (s.admits ⟨p, tag⟩ = true →
      exec (.clearFaults p tag []) s =
        .next (({ s with faults := [], overflow := 0 } : State).replyStored ⟨p, tag⟩ .clearFaults .done
          (byte1 s.faults.length ++ byte1 s.overflow)).examineErase) ∧
    ∀ rs : List Byte, s.admitsRead ⟨p, tag⟩ = true → s.memory.get p = some ⟨tag, 0x10, 0x00, rs⟩ →
      exec (.clearFaults p tag []) s = .next (s.emitReply ⟨p, tag⟩ 0x10 0x00 rs false).examineErase

/-! ## Requests: the other state-changing immediate kinds, and the idle timer -/

/-- UNSTAGE (R38): the owner's entries are discarded, the owner becomes absent and the idle timer stops; entries of another port are
kept with STAGE_OWNED; an empty buffer answers DONE with 0. The reply is kept in reply memory. IDLE_TIMER_EXPIRY (R40): the list is
emptied, the owner becomes absent, and STAGE_EXPIRED is recorded with the owner and the tag of the last accepted STAGE; no frame is
sent and the reply memories stand. -/
def Obligations.UnstageAndIdleTimerExpiryEmptyTheBuffer : Prop :=
  (∀ (s : State) (p : Port) (tag : Byte), s.drained = true → s.staging.consistent = true → s.admits ⟨p, tag⟩ = true →
    exec (.unstage p tag []) s =
      .next (if s.staging.entries = [] then s.replyStored ⟨p, tag⟩ .unstage .done [0]
        else if s.staging.owner = some p then
          ({ s with staging := ⟨[], none, false, none⟩ } : State).replyStored ⟨p, tag⟩ .unstage .done (byte1 s.staging.entries.length)
        else s.replyStored ⟨p, tag⟩ .unstage .stageOwned []).examineErase) ∧
  ∀ (s : State) (p : Port) (tag : Byte), s.staging.timer = true → s.staging.owner = some p → s.staging.tag = some tag →
    exec .idleTimerExpiry s =
      .next (({ s with staging := ⟨[], none, false, none⟩ } : State).addFault ⟨.stageExpired, none, none, none, none, some ⟨p, tag⟩⟩)

/-- STAGE (R36, R37, R39): a count outside 1..8 is a BAD_REQUEST; then the checks of owner, images, channels and room in this order;
an accepted one appends its entries in order, takes an empty buffer for its port, and restarts the idle timer. -/
def Obligations.StageAppendsWhatPassesItsChecks : Prop :=
  ∀ (s : State) (p : Port) (tag n : Byte) (images : List Byte), s.drained = true → s.admits ⟨p, tag⟩ = true →
    images.length = 8 * n.toNat →
    exec (.stage p tag (n :: images)) s =
      .next (if n.toNat = 0 ∨ 8 < n.toNat then s.replyStored ⟨p, tag⟩ .stage .badRequest []
        else if s.staging.entries ≠ [] ∧ s.staging.owner ≠ some p then s.replyStored ⟨p, tag⟩ .stage .stageOwned []
        else
          match entriesOf 1 (imagesOf n.toNat images) with
          | .error pos => s.replyStored ⟨p, tag⟩ .stage .badEntry (byte1 pos)
          | .ok es =>
            match firstDuplicate 1 (s.staging.entries.map Entry.channel) es with
            | some pos => s.replyStored ⟨p, tag⟩ .stage .duplicateChannel (byte1 pos)
            | none =>
              if 16 < s.staging.entries.length + es.length then
                s.replyStored ⟨p, tag⟩ .stage .stageFull (byte1 (16 - s.staging.entries.length))
              else
                ({ s with
                    staging :=
                      { entries := s.staging.entries ++ es
                        owner := if s.staging.entries = [] then some p else s.staging.owner
                        timer := true
                        tag := some tag } } : State).replyStored ⟨p, tag⟩ .stage .done
                  (byte1 (s.staging.entries.length + es.length))).examineErase

/-- SET_MODE_RUN and SET_MODE_BYPASS (R183, R141): the operating state becomes the one named, the reply carries it before and after;
on leaving RUNNING a frame READING is marked, a frame in WAIT_BANK gives up its read and is repeated, and the stages then IDLE take
their heads. That the repeated frames are placed before the reply, where R136 lets either be first, is the model's choice (log 30);
so is that the stages take their heads after it (log 10). -/
def Obligations.SetModeChangesTheOperatingState : Prop :=
  ∀ (s : State) (p : Port) (tag : Byte), s.drained = true → s.admits ⟨p, tag⟩ = true →
    exec (.setModeRun p tag) s =
      .next (({ s with opState := .running } : State).replyStored ⟨p, tag⟩ .setMode .done
        [if s.opState = .running then 2 else 3, 2]).examineErase ∧
    (s.opState = .bypass →
      exec (.setModeBypass p tag) s = .next (s.replyStored ⟨p, tag⟩ .setMode .done [3, 3]).examineErase) ∧
    (s.opState = .running →
      exec (.setModeBypass p tag) s =
        .next ((((({ s with opState := .bypass } : State).stageLeavesRunning .east).stageLeavesRunning .west).stageLeavesRunning
          .tap).replyStored ⟨p, tag⟩ .setMode .done [2, 3]).settle) ∧
    (∀ (q : Port) (h : InHand), s.stages.get q = .reading h →
      s.stageLeavesRunning q = s.setStage q (.reading { h with leftRunning := true })) ∧
    (∀ (q : Port) (h : InHand), s.stages.get q = .waitBank h →
      s.stageLeavesRunning q =
        (let t := (s.setStage q .idle).withdrawRead q (bankOf h.addr.seg)
         match oppositeLine q with
         | some l => (t.placeTraffic l h.frame).count q .bypassed
         | none => t.count q .tapIdle)) ∧
    ∀ q : Port, s.stages.get q = .idle → s.stageLeavesRunning q = s

/-! ## Requests: the queued kinds, and the start rule -/

/-- COMMIT, ERASE, RECLAIM, SET_CONFIG and RESTART (R42, R43, R65, R80, R106, R117, R166): refused, in this order, for what their
parameters or the Staging Buffer show, for a current RESTART and for a full queue; an accepted one joins the queue, an accepted
COMMIT with the entries of the buffer, which it frees; a refused one changes nothing but its reply. A current RESTART is examined
before a full queue but for a COMMIT (R43), where it stands after it; the queue is empty then. -/
def Obligations.QueuedKindsAreAcceptedOrRefused : Prop :=
  (∀ (es : List Entry) (g : Nat) (img : ConfigImage), (QueuedKind.commit es).reqKind = .commit ∧ (QueuedKind.erase g).reqKind = .erase ∧
    (QueuedKind.reclaim g).reqKind = .reclaim ∧ (QueuedKind.setConfig img).reqKind = .setConfig ∧
    QueuedKind.restart.reqKind = .restart) ∧
  ∀ (s : State) (p : Port) (tag : Byte), s.admits ⟨p, tag⟩ = true →
    (exec (.commit p tag []) s =
      .next (if s.staging.entries = [] then s.replyStored ⟨p, tag⟩ .commit .stageEmpty []
        else if s.staging.owner ≠ some p then s.replyStored ⟨p, tag⟩ .commit .stageOwned []
        else if 8 ≤ s.queue.length then s.replyStored ⟨p, tag⟩ .commit .queueFull []
        else
          match s.op with
          | .restart _ => s.replyStored ⟨p, tag⟩ .commit .notRunning []
          | _ => ({ s with staging := ⟨[], none, false, none⟩ } : State).enqueued ⟨⟨p, tag⟩, .commit s.staging.entries⟩).settle) ∧
    (∀ (c : Instr) (k : QueuedKind),
      ((∃ g : Byte, g.toNat < 32 ∧ c = .erase p tag [g] ∧ k = .erase g.toNat) ∨
        (∃ g : Byte, g.toNat < 32 ∧ c = .reclaim p tag [g] ∧ k = .reclaim g.toNat) ∨
        (∃ (ps : List Byte) (img : ConfigImage), configImageOf ps = some img ∧ c = .setConfig p tag ps ∧ k = .setConfig img) ∨
        (c = .restart p tag [] ∧ k = .restart)) →
      exec c s =
        .next (match s.op with
          | .restart _ => s.replyStored ⟨p, tag⟩ k.reqKind .notRunning []
          | _ =>
            if 8 ≤ s.queue.length then s.replyStored ⟨p, tag⟩ k.reqKind .queueFull []
            else s.enqueued ⟨⟨p, tag⟩, k⟩).settle) ∧
    ∀ g : Byte, 32 ≤ g.toNat →
      exec (.erase p tag [g]) s = .next (s.replyStored ⟨p, tag⟩ .erase .badRequest []).settle ∧
      exec (.reclaim p tag [g]) s = .next (s.replyStored ⟨p, tag⟩ .reclaim .badRequest []).settle

/-- The start rule (R109 to R112): an idle engine without a suspended erase takes the head of the queue, again after a start that
was refused; with one suspended it takes a COMMIT or SET CONFIG at the head, else resumes the erase as the current operation; a
current erase at SUSPENDED gives way to a COMMIT or SET CONFIG at the head; any other current operation goes on. A COMMIT or SET
CONFIG is at the head exactly when the oldest request is one (R72, R110, R111). -/
def Obligations.EngineStartsTheNextRequest : Prop :=
  (∀ k : QueuedKind, k.urgent = true ↔ (∃ es, k = .commit es) ∨ ∃ img, k = .setConfig img) ∧
  (∀ s : State, s.urgentHead = true ↔
    ∃ (q : QueuedRequest) (qs : List QueuedRequest), s.queue = q :: qs ∧ ((∃ es, q.kind = .commit es) ∨ ∃ img, q.kind = .setConfig img)) ∧
  (∀ s : State, s.op ≠ .idle → (∀ e, s.op = .erase e → e.step ≠ .suspended) → s.engineNext = s) ∧
  (∀ s : State, s.op = .idle → s.suspended = none → s.queue = [] → s.engineNext = s) ∧
  (∀ (s : State) (q : QueuedRequest) (qs : List QueuedRequest), s.op = .idle → s.queue = q :: qs →
    (s.suspended = none ∨ q.kind.urgent = true) →
    s.engineNext = (({ s with queue := qs } : State).startRequest q).engineNext) ∧
  (∀ (s : State) (e : EraseRec), s.op = .idle → s.suspended = some e → s.urgentHead = false →
    s.engineNext = { s with op := .erase e, suspended := none }) ∧
  (∀ (s : State) (e : EraseRec) (q : QueuedRequest) (qs : List QueuedRequest), s.op = .erase e → e.step = .suspended →
    s.queue = q :: qs → q.kind.urgent = true →
    s.engineNext = (({ s with queue := qs, suspended := some e, op := .idle } : State).startRequest q).engineNext) ∧
  ∀ (s : State) (e : EraseRec), s.op = .erase e → e.step = .suspended → s.urgentHead = false → s.engineNext = s

/-- Allocation chooses, among the CLEAN route segments, one of the lowest erase count, of several the lowest id, and finds none when
none is CLEAN (R16). The space check (R49): a batch that needs n slots has room in the OPEN segment when so many slots stand from
its fill pointer on; else, and with no segment OPEN, it takes the segment that allocation chooses, or finds no room. -/
def Obligations.AllocationTakesTheLeastWornCleanSegment : Prop :=
  (∀ s : State,
    (∀ g : Nat, s.allocatable = some g →
      g < 32 ∧ s.segIs g .clean = true ∧
        ∀ x : Nat, x < 32 → s.segIs x .clean = true →
          s.erasesOf g ≤ s.erasesOf x ∧ (s.erasesOf g = s.erasesOf x → g ≤ x)) ∧
    (s.allocatable = none → ∀ x : Nat, x < 32 → s.segIs x .clean = false)) ∧
  (∀ s : State, s.atMostOneOpen = true → ∀ g : Nat, s.openSeg = some g ↔ g < 32 ∧ (s.seg g).state = some .opened) ∧
  ∀ (s : State) (n : Nat), 1 ≤ n →
    let full := ∀ o : Nat, s.openSeg = some o → 64 < s.fillOf o + n
    (s.placement n = .inOpen ↔ ∃ o : Nat, s.openSeg = some o ∧ s.fillOf o + n ≤ 64) ∧
    (∀ g : Nat, s.placement n = .inFresh g ↔ full ∧ s.allocatable = some g) ∧
    (s.placement n = .noRoom ↔ full ∧ s.allocatable = none)

/-- A COMMIT that the engine starts (R47 to R50), its queued request handed over with its entries: GUARDED when the strap is not
asserted and an entry lies in the guarded range, with the channel of the first such entry in batch order, else NO_SPACE, else
ISSUE_EXHAUSTED; one that passes takes the issue number, places its batch at the fill pointer of the OPEN segment or of a segment
allocated for it, which becomes OPEN and the one before it FILLED, and issues its first program. -/
def Obligations.CommitStartsWhenItsChecksPass : Prop :=
  (∀ (s : State) (o : Origin) (es : List Entry), s.startRequest ⟨o, .commit es⟩ = s.startCommit o es) ∧
  (∀ (c : ConfigRecord) (es : List Entry),
    (∀ ch : Nat, firstGuarded c es = some ch ↔
      ∃ (before after : List Entry) (e : Entry), es = before ++ e :: after ∧ e.channel = ch ∧ c.guardLow ≤ ch ∧ ch ≤ c.guardHigh ∧
        ∀ x ∈ before, ¬ (c.guardLow ≤ x.channel ∧ x.channel ≤ c.guardHigh)) ∧
    (firstGuarded c es = none ↔ ∀ x ∈ es, ¬ (c.guardLow ≤ x.channel ∧ x.channel ≤ c.guardHigh))) ∧
  ∀ (s : State) (o : Origin) (e : Entry) (es : List Entry), s.canonical = true → s.atMostOneOpen = true →
    let n := es.length + 2
    (∀ ch, s.guardRelease = false → firstGuarded s.config.values (e :: es) = some ch →
      s.startCommit o (e :: es) = s.replyStored o .commit .guarded (byte2 ch)) ∧
    (s.guardRelease = true ∨ firstGuarded s.config.values (e :: es) = none →
      (s.placement n = .noRoom → s.startCommit o (e :: es) = s.replyStored o .commit .noSpace (byte1 n)) ∧
      (s.placement n ≠ .noRoom → 4294967295 ≤ s.issueNow →
        s.startCommit o (e :: es) = s.replyStored o .commit .issueExhausted []) ∧
      (∀ i : Nat, s.issue = some i → i < 4294967295 →
        (∀ g, s.placement n = .inOpen → s.openSeg = some g →
          s.startCommit o (e :: es) =
            (({ s with
                issue := some (i + 1)
                op := .commit ⟨o, e :: es, i, g, s.fillOf g, .write, .write 0, [], [], 0⟩ } : State).setSeg g
              { s.seg g with fill := some (s.fillOf g + 1) }).claimProgram ⟨.write, .slot ⟨g, s.fillOf g⟩ (.entry i e)⟩) ∧
        ∀ g, s.placement n = .inFresh g →
          ∃ t : State, s.startCommit o (e :: es) = t.claimProgram ⟨.write, .slot ⟨g, 0⟩ (.entry i e)⟩ ∧
            t.issue = some (i + 1) ∧ t.op = .commit ⟨o, e :: es, i, g, 0, .write, .write 0, [], [], 0⟩ ∧
            t.seg g = { s.seg g with state := some .opened, fill := some 1 } ∧
            (∀ f, s.openSeg = some f → t.seg f = { s.seg f with state := some .filled }) ∧
            (∀ f, f ≠ g → s.openSeg ≠ some f → t.seg f = s.seg f) ∧
            t = { s with issue := t.issue, op := t.op, segs := t.segs }))

/-- An ERASE that the engine starts (R66, R67): SEGMENT_IN_USE while entries are in use, else WORN at 100,000 erases; one that
passes makes its segment ERASING and claims its bank. -/
def Obligations.EraseStartsWhenItsChecksPass : Prop :=
  ∀ (s : State) (o : Origin) (g : Nat), s.op = .idle →
    s.startRequest ⟨o, .erase g⟩ =
      (if s.inUseOf g ≠ 0 then
        s.replyStored o .erase .segmentInUse (eraseResultBytes { seg := g, inUse := some (s.inUseOf g) })
      else if 100000 ≤ s.erasesOf g then
        s.replyStored o .erase .worn (eraseResultBytes { seg := g, erases := some (s.erasesOf g) })
      else
        ({ s.setSeg g { s.seg g with state := some .erasing } with op := .erase ⟨g, o, none, .claimed, 0, 0, false, []⟩ } : State).makeClaim
          (bankOf g) (.erase g))

/-- A RESTART that the engine starts (R117, R118): every request behind it in the queue is answered CANCELLED in queue order, each
reply kept and placed, and the queue is emptied; then its own DONE is kept and placed. The engine awaits the transmission of every
one of these replies that found room; when all were lost, the internal reset follows at once (the model's reading, log 22). -/
def Obligations.RestartAwaitsItsReplies : Prop :=
  (∀ s : State, s.internalReset.MountBegun ∧ s.internalReset.store = s.cutShort ∧ s.internalReset.resetAsserted = s.resetAsserted ∧
    s.internalReset.guardRelease = s.guardRelease) ∧
  (∀ s : State, (∀ l : Line, s.replyRoom (linePort l) = true ↔ (s.replies.get l).length < 4) ∧
    (s.replyRoom .tap = true ↔ s.delivery.length < 32)) ∧
  (∀ (s : State) (o : Origin),
    let u := (State.cancelAll s.queue 0 { s with queue := [] }).1
    let n := (State.cancelAll s.queue 0 { s with queue := [] }).2 + (if u.replyRoom o.port = true then 1 else 0)
    let t := ({ u with memory := u.memory.set o.port (some ⟨o.tag, 0x24, 0x00, []⟩) } : State).placeReply o.port
      ⟨replyFrame s.config.values.station o.tag 0x24 0x00 [], true⟩
    s.startRequest ⟨o, .restart⟩ = (if n = 0 then t.internalReset else { t with op := .restart ⟨o, n⟩ })) ∧
  (∀ (s : State) (n : Nat), State.cancelAll [] n s = (s, n)) ∧
  (∀ (s : State) (q : QueuedRequest) (qs : List QueuedRequest) (n : Nat),
    State.cancelAll (q :: qs) n s =
      State.cancelAll qs (if s.replyRoom q.origin.port = true then n + 1 else n)
        (({ s with memory := s.memory.set q.origin.port (some ⟨q.origin.tag, q.kind.reqKind.code, 0x17, []⟩) } : State).placeReply q.origin.port
          ⟨replyFrame s.config.values.station q.origin.tag q.kind.reqKind.code 0x17 [], true⟩)) ∧
  ∀ (qs : List QueuedRequest) (n : Nat) (s : State),
    (State.cancelAll qs n s).1 =
      { s with
        memory := (State.cancelAll qs n s).1.memory
        counters := (State.cancelAll qs n s).1.counters
        replies := (State.cancelAll qs n s).1.replies
        traffic := (State.cancelAll qs n s).1.traffic
        lineTx := (State.cancelAll qs n s).1.lineTx
        delivery := (State.cancelAll qs n s).1.delivery
        tapTx := (State.cancelAll qs n s).1.tapTx }

/-- ABANDON (R114 to R116, R76, R77, Tables 4-2 and 6-3): a queued target is removed and answered CANCELLED; a current RECLAIM in
RELOCATE is marked; a running erase is stopped, a suspending one marked, one claimed or suspended ends at once; a COMMIT, SET CONFIG
or RESTART under way, a stop by the timeout and a stamp are NOT_CANCELLABLE; no target is NOT_FOUND. That at one event the target's
reply and the ABANDON's are placed before the start rule is applied is the model's choice (log 12). An erase that ends by an ABANDON
at once ends as one stopped by an ABANDON does. -/
def Obligations.AbandonActsByWhereItsTargetStands : Prop :=
  (∀ (s : State) (e : EraseRec), s.eraseAbandoned e = s.eraseStopped .abandon e) ∧
  ∀ (s : State) (p : Port) (tag t : Byte), s.admits ⟨p, tag⟩ = true →
    let ans := fun (u : State) (st : Status) => u.replyStored ⟨p, tag⟩ .abandon st []
    (∀ q, s.queue.find? (fun x => x.origin = ⟨p, t⟩) = some q →
      exec (.abandon p tag [t]) s =
        .next (let u := ans (({ s with queue := s.queue.filter (fun x => x.origin ≠ ⟨p, t⟩) } : State).replyStored ⟨p, t⟩ q.kind.reqKind
                  .cancelled []) .done
               if s.queue.head? = some q then u.engineNext else u).settle) ∧
    (s.queue.find? (fun x => x.origin = ⟨p, t⟩) = none →
      (s.op.origin? ≠ some ⟨p, t⟩ → s.suspended.map EraseRec.origin ≠ some ⟨p, t⟩ →
        exec (.abandon p tag [t]) s = .next (ans s .notFound).settle) ∧
      (∀ r, s.op = .reclaim r → r.origin = ⟨p, t⟩ →
        exec (.abandon p tag [t]) s = .next (ans { s with op := .reclaim { r with abandoned := true } } .done).settle) ∧
      ((∃ b, s.op = .commit b) ∨ (∃ w, s.op = .configWrite w) ∨ (∃ r, s.op = .restart r) → s.op.origin? = some ⟨p, t⟩ →
        exec (.abandon p tag [t]) s = .next (ans s .notCancellable).settle) ∧
      (∀ e : EraseRec, s.op = .erase e → e.origin = ⟨p, t⟩ →
        exec (.abandon p tag [t]) s =
          .next (match e.step with
            | .claimed => (ans (s.eraseAbandoned e) .done).engineNext
            | .suspended => (ans (s.eraseAbandoned e) .done).engineNext
            | .running => ans { s with op := .erase { e with step := .stopping .abandon, runTimer := false } } .done
            | .waiting => ans { s with op := .erase { e with step := .stopping .abandon, runTimer := false } } .done
            | .suspending =>
              ans { s with op := .erase { e with held := if StopCause.abandon ∈ e.held then e.held else e.held ++ [StopCause.abandon] } } .done
            | .stopping .abandon => ans s .done
            | .stopping .timeout => ans s .notCancellable
            | .stamping => ans s .notCancellable).settle)) ∧
    ∀ e : EraseRec, s.queue.find? (fun x => x.origin = ⟨p, t⟩) = none → s.op.origin? ≠ some ⟨p, t⟩ → s.suspended = some e →
      e.origin = ⟨p, t⟩ → e.step = .suspended →
      exec (.abandon p tag [t]) s = .next (ans (s.eraseAbandoned e) .done).engineNext.settle

/-! ## Traffic -/

/-- FRAME_ARRIVAL (R124, R140): at a busy lookup stage the frame joins its ingress FIFO and is counted received, or is counted
INGRESS_FULL too when the FIFO holds 16; while HELD a line frame is carried across to the opposite line and a TAP frame is dropped,
without a count; without supply there is no arrival (log 5). At an idle stage while MOUNTING or in BYPASS (R139) a frame that is not
a good channel-0 frame is repeated on the opposite line unchanged, a TAP frame is discarded as TAP_IDLE. The line opposite to EAST
is WEST and to WEST EAST; the tap has none (R127, R133, R139). -/
def Obligations.ArrivalsAreQueuedCarriedAcrossOrRepeated : Prop :=
  (oppositeLine .east = some .west ∧ oppositeLine .west = some .east ∧ oppositeLine .tap = none ∧ linePort .east = .east ∧
    linePort .west = .west) ∧
  (∀ (s : State) (p : Port) (f : Frame), s.drained = true →
    (s.opState.linkUp = true → s.stages.get p ≠ .idle →
      exec (.frameArrival p f) s =
        .next (if (s.ingress.get p).length < 16 then
            { s.count p .received with ingress := s.ingress.set p (s.ingress.get p ++ [f]) }
          else (s.count p .received).count p .ingressFull).examineErase) ∧
    (s.opState = .held → s.stages.get p = .idle → s.examined = true →
      exec (.frameArrival p f) s =
        .next (match oppositeLine p with
          | some l => s.carryTraffic l f
          | none => s).examineErase) ∧
    (s.opState = .noPower → exec (.frameArrival p f) s = .next s)) ∧
  ∀ (s : State) (p : Port) (f : Frame), s.drained = true → s.opState = .mounting ∨ s.opState = .bypass →
    s.stages.get p = .idle → s.examined = true → ¬ (frameChannelField f = 0 ∧ checkGood f = true ∧ formatGood f = true) →
    exec (.frameArrival p f) s =
      .next (match oppositeLine p with
        | some l => ((s.count p .received).placeTraffic l f).count p .bypassed
        | none => (s.count p .received).count p .tapIdle).examineErase

/-- FRAME_ARRIVAL at an idle stage while RUNNING (R126, R128, R129, R92, R100): counted received; then CHECK, FORMAT, the no-route
action, or a read requested of the slot that the channel's position names, which starts in a readable bank with nothing waiting and
else joins its queue with the hold timer set to the hold limit in force. -/
def Obligations.RunningLooksUpWhatPassesTheTests : Prop :=
  ∀ (s : State) (p : Port) (f : Frame), s.drained = true → s.opState = .running → s.stages.get p = .idle → s.examined = true →
    let s1 := s.count p .received
    (checkGood f = false → exec (.frameArrival p f) s = .next (s1.count p .check).examineErase) ∧
    (checkGood f = true → formatGood f = false → exec (.frameArrival p f) s = .next (s1.count p .format).examineErase) ∧
    (checkGood f = true → formatGood f = true → frameChannelField f ≠ 0 →
      (s.position (frameChannelField f) = none →
        exec (.frameArrival p f) s =
          .next (if s.config.values.noRoute = .deliver ∧ p ≠ .tap then (s1.placeDelivery f).count p .delivered
            else s1.count p .noRoute).examineErase) ∧
      ∀ a, s.position (frameChannelField f) = some a →
        let b := bankOf a.seg
        let u := s.bank b
        exec (.frameArrival p f) s =
          .next (if (u.state = .free ∨ u.state = .eraseSuspended) ∧ u.queue = [] ∧ u.inFlight = none then
              (s1.setBank b { u with inFlight := some ⟨.slot a, .lookup p, false⟩ }).setStage p (.reading ⟨f, true, 0, a, false⟩)
            else
              (s1.setBank b { u with queue := u.queue ++ [⟨a, p, s.config.values.holdLimit, false⟩] }).setStage p
                (.waitBank ⟨f, true, 0, a, false⟩)).examineErase)

/-- FRAME_ARRIVAL of a good channel-0 frame at an idle stage (R127, R139, R144, R146, R147): a request for this part is consumed and
has the effect of the command of its kind; a STATUS or DESCRIBE broadcast is also passed on; a reply, a request for another station
and any other broadcast is passed on by a line, and discarded as TAP_IDLE from the tap. A SET MODE whose mode byte is neither 0x01
nor 0x02, or whose parameters have another length, is refused BAD_REQUEST, and the reply kept (R183, R152, R156). A hand-off, also
of a frame taken from an ingress FIFO, is that of such a frame: its disposition and the counter of a passed line frame; a request
dispatched is the command of its kind. -/
def Obligations.ManagementFramesAreConsumedOrPassed : Prop :=
  (∀ (c : Instr) (k : ReqKind) (o : Origin) (ps : List Byte) (s : State), requestOf c = some (k, o, ps) → s.opState.linkUp = true →
    exec c s = .next (s.dispatch ⟨o, k.code, ps⟩).settle) ∧
  (∀ (s : State) (p : Port) (f : Frame) (c : Counter),
    let m := managementFields (framePayload f)
    let s2 := s.count p .mgmtConsumed
    let r : Request := ⟨⟨p, m.tag⟩, m.kind, m.params⟩
    s.handOff p f c =
      (if m.isReply = false ∧ m.station = 65535 ∧ (m.kind = 0x01 ∨ m.kind = 0x02) then
        match oppositeLine p with
        | some l => (s2.dispatch r).placeTraffic l f
        | none => s2.dispatch r
      else if m.isReply = false ∧ m.station ≠ 65535 ∧ m.station = s.config.values.station then s2.dispatch r
      else
        match oppositeLine p with
        | some l => (s.placeTraffic l f).count p c
        | none => s.count p .tapIdle)) ∧
  ∀ (s : State) (p : Port) (f : Frame), s.drained = true → s.opState.linkUp = true → s.stages.get p = .idle → s.examined = true →
    frameChannelField f = 0 → checkGood f = true → formatGood f = true →
    let m := managementFields (framePayload f)
    let s1 := s.count p .received
    let s2 := s1.count p .mgmtConsumed
    (m.isReply = true ∨ (m.station ≠ 65535 ∧ m.station ≠ s.config.values.station) ∨
        (m.station = 65535 ∧ m.kind ≠ 0x01 ∧ m.kind ≠ 0x02) →
      exec (.frameArrival p f) s =
        .next (match oppositeLine p with
          | some l => (s1.placeTraffic l f).count p (if s.opState = OpState.running then .mgmtPassed else .bypassed)
          | none => s1.count p .tapIdle).examineErase) ∧
    (∀ (c : Instr) (k : ReqKind), m.isReply = false → m.station ≠ 65535 → m.station = s.config.values.station →
      m.kind = k.code → requestOf c = some (k, ⟨p, m.tag⟩, m.params) → exec (.frameArrival p f) s = exec c s2) ∧
    (m.isReply = false → m.station ≠ 65535 → m.station = s.config.values.station → kindOf m.kind = none →
      exec (.frameArrival p f) s =
        .next (s2.replyRead ⟨p, m.tag⟩ m.kind
          (if s.opState = .mounting then .notRunning
           else if s.inProgress ⟨p, m.tag⟩ = true then .inProgress else .badRequest) []).examineErase) ∧
    (m.isReply = false → m.station ≠ 65535 → m.station = s.config.values.station → m.kind = 0x14 → s.admits ⟨p, m.tag⟩ = true →
      m.params ≠ [1] → m.params ≠ [2] →
      exec (.frameArrival p f) s = .next (s2.replyStored ⟨p, m.tag⟩ .setMode .badRequest []).examineErase) ∧
    (m.isReply = false → m.station = 65535 → m.kind = 0x01 ∨ m.kind = 0x02 →
      exec (.frameArrival p f) s =
        .next (let t := s2.dispatch ⟨⟨p, m.tag⟩, m.kind, m.params⟩
               match oppositeLine p with
               | some l => t.placeTraffic l f
               | none => t).examineErase)

/-- LOOKUP_READ_COMPLETION with a route that passes its check (R130, R133, R134, Table 7-2, R141): the bank goes on and the stage is
free; a port outside the accept set counts NOT_ACCEPTED; else the action of the route is carried out with copies that carry the out
channel; for a frame that was READING when the unit left RUNNING no copy goes to the tap, and a frame that would only be delivered
is repeated. The check is that of R30, whose terms the statement after this one gives; a port is of the accept set by its own
member. -/
def Obligations.LookupReadCarriesOutTheRoute : Prop :=
  (∀ a : PortSet, a.has .east = a.east ∧ a.has .west = a.west ∧ a.has .tap = a.tap) ∧
  ∀ (s : State) (p : Port) (lost counted : Bool) (h : InHand) (x : ReadTarget) (r : RouteFields), s.stages.get p = .reading h →
    (s.bank (bankOf h.addr.seg)).inFlight = some ⟨x, .lookup p, counted⟩ →
    routeCheck (s.readSlotResult h.addr lost) (frameChannelField h.frame) = some r →
    let s1 := (s.setStage p .idle).readDone (bankOf h.addr.seg)
    let f := h.frame
    let c := match r.outChannel with
      | some n => if n = frameChannelField f then f else withCheck (byte2 n ++ (f.drop 2).take (f.length - 4))
      | none => f
    exec (.lookupReadCompletion p lost) s =
      .next (if r.accept.has p = false then
          s1.count p .notAccepted
        else
          match oppositeLine p, r.action with
          | some l, .pass => (s1.placeTraffic l c).count p .passed
          | some l, .deliver =>
            if h.leftRunning = true then (s1.placeTraffic l f).count p .bypassed else (s1.placeDelivery c).count p .delivered
          | some l, .passAndDeliver =>
            if h.leftRunning = true then (s1.placeTraffic l c).count p .passed
            else (((s1.placeTraffic l c).count p .passed).placeDelivery c).count p .delivered
          | none, .deliver => s1.count p .noDeliverToSelf
          | _, .discard => s1.count p .discarded
          | none, _ =>
            match r.tapSide with
            | some l => (s1.placeTraffic l c).count p .passed
            | none => s1).settle

/-- The check of a read made through the index (R30): a read result passes for a channel, with the fields of the route, exactly when
it is a record of kind ROUTE of that channel, PENDING or LIVE. LOOKUP_READ_COMPLETION with a failed check (R131, R141): at the third
failed check, or when the position still names the slot just read, the frame is discarded as STALE; with no position it has the
no-route action; else a read of the slot that the position now names is requested (R92), which starts in a readable bank with
nothing waiting and else joins its queue with the hold limit in force. A frame that was READING when the unit left RUNNING is
repeated instead. -/
def Obligations.LookupReadSteersAFailedCheck : Prop :=
  (∀ (x : ReadResult) (ch : Nat) (f : RouteFields), routeCheck x ch = some f ↔
    ∃ (st : RecState) (n : Nat), x = .record ⟨st, n, .entry ⟨ch, .route f⟩⟩ ∧ (st = .pending ∨ st = .live)) ∧
  (∀ (s : State) (p : Port) (h : InHand) (a : SlotAddr),
    let b := bankOf a.seg
    let u := s.bank b
    s.requestRead p h a =
      (if (u.state = .free ∨ u.state = .eraseSuspended) ∧ u.queue = [] ∧ u.inFlight = none then
        (s.setBank b { u with inFlight := some ⟨.slot a, .lookup p, false⟩ }).setStage p (.reading { h with addr := a })
      else
        (s.setBank b { u with queue := u.queue ++ [⟨a, p, s.config.values.holdLimit, false⟩] }).setStage p
          (.waitBank { h with addr := a }))) ∧
  ∀ (s : State) (p : Port) (lost counted : Bool) (h : InHand) (x : ReadTarget), s.stages.get p = .reading h →
    (s.bank (bankOf h.addr.seg)).inFlight = some ⟨x, .lookup p, counted⟩ →
    routeCheck (s.readSlotResult h.addr lost) (frameChannelField h.frame) = none →
    let s1 := (s.setStage p .idle).readDone (bankOf h.addr.seg)
    exec (.lookupReadCompletion p lost) s =
      .next (if h.leftRunning = true then
          match oppositeLine p with
          | some l => (s1.placeTraffic l h.frame).count p .bypassed
          | none => s1.count p .tapIdle
        else if 2 ≤ h.failed then s1.count p .stale
        else
          match s.position (frameChannelField h.frame) with
          | none =>
            if s.config.values.noRoute = .deliver ∧ p ≠ .tap then (s1.placeDelivery h.frame).count p .delivered
            else s1.count p .noRoute
          | some a =>
            if a = h.addr then s1.count p .stale else s1.requestRead p { h with failed := h.failed + 1 } a).settle

/-- What a read of a route slot reports (R3, R4, R20, R94): UNREADABLE in the segment of the erase suspended in its bank; else
MARGIN_FAIL when margin is lost or a cell is indeterminate; else BLANK, VOID, or the record when it is one that R3 allows, and
MARGIN_FAIL when it is none. READ_SLOT (R103): BAD_REQUEST outside the route segments; else the read starts in a readable bank with
nothing queued or in flight, and is refused BANK_BUSY in any other case, with nothing in the bank changed. READ_SLOT_COMPLETION
(R104): the bank goes on, and the DONE reply carries the segment id, the slot and the read result. HOLD_TIMER_EXPIRY (R101, R132):
the read leaves its queue and the frame is discarded as HOLD_EXPIRED; a read that no claim counted leaves the claim marker as it
stands, and the head of the queue is started when the bank can start it. -/
def Obligations.ReadSlotsStartAndCompleteAndHoldTimersExpire : Prop :=
  (let allowed : SlotRecord → Prop := fun r =>
     1 ≤ r.issue ∧ r.issue ≤ 4294967294 ∧
       match r.content with
       | .seal n => r.state = .live ∧ 1 ≤ n ∧ n ≤ 16
       | .entry ⟨ch, .withdraw⟩ => 1 ≤ ch ∧ ch ≤ 4095
       | .entry ⟨ch, .route f⟩ =>
         1 ≤ ch ∧ ch ≤ 4095 ∧ (f.accept.east = true ∨ f.accept.west = true ∨ f.accept.tap = true) ∧
           (∀ n : Nat, f.outChannel = some n → 1 ≤ n ∧ n ≤ 4095) ∧
           (f.tapSide ≠ none ↔ f.accept.tap = true ∧ (f.action = .pass ∨ f.action = .passAndDeliver))
   ∀ (s : State) (a : SlotAddr) (lost : Bool),
     ((s.bank (bankOf a.seg)).suspended = some a.seg → s.readSlotResult a lost = .unreadable) ∧
     ((s.bank (bankOf a.seg)).suspended ≠ some a.seg →
       (lost = true ∨ s.store.slot a = .indeterminate → s.readSlotResult a lost = .marginFail) ∧
       (lost = false →
         (s.store.slot a = .blank → s.readSlotResult a lost = .blank) ∧
         (s.store.slot a = .void → s.readSlotResult a lost = .void) ∧
         ∀ r : SlotRecord, s.store.slot a = .written r →
           (allowed r → s.readSlotResult a lost = .record r) ∧ (¬ allowed r → s.readSlotResult a lost = .marginFail)))) ∧
  (∀ (s : State) (p : Port) (tag g n : Byte), s.drained = true → s.admitsRead ⟨p, tag⟩ = true →
    let b := bankOf g.toNat
    exec (.readSlot p tag [g, n]) s =
      .next (if g.toNat < 32 ∧ n.toNat < 64 then
          if ((s.bank b).state = .free ∨ (s.bank b).state = .eraseSuspended) ∧ (s.bank b).queue = [] ∧ (s.bank b).inFlight = none then
            s.setBank b { s.bank b with inFlight := some ⟨.slot ⟨g.toNat, n.toNat⟩, .readSlot ⟨p, tag⟩, false⟩ }
          else s.replyRead ⟨p, tag⟩ 0x03 .bankBusy []
        else s.replyRead ⟨p, tag⟩ 0x03 .badRequest []).examineErase) ∧
  (∀ (s : State) (b : Bank) (a : SlotAddr) (o : Origin) (counted lost : Bool), s.drained = true →
    (s.bank b).inFlight = some ⟨.slot a, .readSlot o, counted⟩ →
    exec (.readSlotCompletion b lost) s =
      .next ((s.readDone b).replyRead o 0x03 .done
        (byte1 a.seg ++ byte1 a.slot ++ readResultBytes (s.readSlotResult a lost))).examineErase) ∧
  (∀ (s : State) (p : Port) (h : InHand) (q : QueuedRead), s.stages.get p = .waitBank h →
    q ∈ (s.bank (bankOf h.addr.seg)).queue → q.stage = p →
    exec (.holdTimerExpiry p) s =
      .next (((s.setStage p .idle).withdrawRead p (bankOf h.addr.seg)).count p .holdExpired).settle) ∧
  ∀ (s : State) (p : Port) (b : Bank) (q : QueuedRead), (s.bank b).queue.find? (fun x => x.stage = p) = some q → q.counted = false →
    s.withdrawRead p b = (s.setBank b { s.bank b with queue := (s.bank b).queue.filter (fun x => x.stage ≠ p) }).startHead b

/-- LINE_TRANSMISSION_COMPLETION and TAP_TRANSMISSION_COMPLETION (R136, R137): the transmitter goes on with the oldest reply, else
with the oldest traffic frame, else is idle; the tap's with the oldest frame of its FIFO. The end of a RESTART (R118, R182): when
the last awaited reply has left, and at RESTART_DRAIN_EXPIRY, the internal reset is performed: the mount begins, every piece of
volatile state stands at its reset value, the store keeps what the work under way left. At an awaited reply before the last the
transmitter goes on in the same way, and the number awaited goes down by one. -/
def Obligations.TransmissionsGoOnAndEndARestart : Prop :=
  let nextOnLine : State → Line → State := fun s l =>
    match s.replies.get l, s.traffic.get l with
    | r :: rs, _ => { s with lineTx := s.lineTx.set l (some r), replies := s.replies.set l rs }
    | [], f :: fs => { s with lineTx := s.lineTx.set l (some ⟨f, false⟩), traffic := s.traffic.set l fs }
    | [], [] => { s with lineTx := s.lineTx.set l none }
  let nextOnTap : State → State := fun s =>
    match s.delivery with
    | d :: ds => { s with tapTx := some d, delivery := ds }
    | [] => { s with tapTx := none }
  (∀ (s : State) (l : Line) (o : Outgoing), s.lineTx.get l = some o → o.awaited = false ∨ (∀ r, s.op ≠ .restart r) →
    exec (.lineTransmissionCompletion l) s = .next (nextOnLine s l)) ∧
  (∀ (s : State) (o : Outgoing), s.tapTx = some o → o.awaited = false ∨ (∀ r, s.op ≠ .restart r) →
    exec .tapTransmissionCompletion s = .next (nextOnTap s)) ∧
  (∀ (s : State) (r : RestartRec), s.op = .restart r →
    ∃ t, exec .restartDrainExpiry s = .next t ∧ t.MountBegun ∧ t.store = s.cutShort ∧ t.resetAsserted = s.resetAsserted ∧
      t.guardRelease = s.guardRelease) ∧
  (∀ (s : State) (r : RestartRec) (l : Line) (f : Frame), s.op = .restart r → s.lineTx.get l = some ⟨f, true⟩ →
    (r.awaiting ≤ 1 →
      ∃ t, exec (.lineTransmissionCompletion l) s = .next t ∧ t.MountBegun ∧ t.store = s.cutShort ∧
        t.resetAsserted = s.resetAsserted ∧ t.guardRelease = s.guardRelease) ∧
    (2 ≤ r.awaiting →
      exec (.lineTransmissionCompletion l) s = .next { nextOnLine s l with op := .restart { r with awaiting := r.awaiting - 1 } })) ∧
  ∀ (s : State) (r : RestartRec) (f : Frame), s.op = .restart r → s.tapTx = some ⟨f, true⟩ →
    (r.awaiting ≤ 1 →
      ∃ t, exec .tapTransmissionCompletion s = .next t ∧ t.MountBegun ∧ t.store = s.cutShort ∧ t.resetAsserted = s.resetAsserted ∧
        t.guardRelease = s.guardRelease) ∧
    (2 ≤ r.awaiting →
      exec .tapTransmissionCompletion s = .next { nextOnTap s with op := .restart { r with awaiting := r.awaiting - 1 } })

/-! ## The banks, and programs -/

/-- A claim on a bank (R95 to R98): in a readable bank with no read queued or in flight it is granted at once, a program then being
in progress, an erase running with its run interval timer started (its suspension reasons are examined at the grant, R200, so that
with one standing it waits), a read in flight; with reads waiting in a FREE bank it is recorded with every read counted and the bank
drains them; a claim made on a bank that drains for a withdrawn one replaces it. In a bank at work it is recorded: R98 says so of a
program claim on a bank with an erase running; of any other claim, and of one on a PROGRAMMING bank, it is the model's reading (log
24). What the operations of the banks change: the banks, the lookup stages, the program in progress and the engine's records,
nothing else. A read completion, a withdrawn read or the end of a bank's work starts the oldest queued read of a readable bank, or a
counted one of a DRAINING bank, whose stage passes from WAIT_BANK to READING (R93). Every counted read lowers the marker; at 0 the
claim is granted, or a bank whose erase claim was withdrawn returns to rest (R96). A bank whose work ends goes to rest and serves
its queue, or takes up the claim held meanwhile, after its counted reads (R97, R98). The engine's program claims and read claims are
such claims on the bank of their route segment; on the configuration bank a program is in progress at once, the bank PROGRAMMING,
and a read is performed at once (R95, R99, R102). -/
def Obligations.BanksGrantClaimsInTurn : Prop :=
  let readable := fun u : BankUnit => u.state = .free ∨ u.state = .eraseSuspended
  let rest := fun u : BankUnit => if u.suspended = none then BankState.free else .eraseSuspended
  let granted : State → Bank → BankUnit → Claim → State := fun s b u c =>
    match c with
    | .program p => { s.setBank b { u with state := .programming, claim := none } with program := some p }
    | .erase g =>
      if (s.bank (bankOf g)).queue ≠ [] ∨ s.urgentHead = true then
        (s.setBank b { u with state := .suspendWait, claim := none }).mapErase (fun e => { e with step := .waiting, runTimer := true })
      else
        (s.setBank b { u with state := .eraseRunning, claim := none }).mapErase (fun e => { e with step := .running, runTimer := true })
    | .resume _ =>
      (s.setBank b { u with state := .eraseRunning, claim := none, suspended := none }).mapErase
        (fun e => { e with step := .running, runTimer := true })
    | .read x => s.setBank b { u with state := rest u, claim := none, inFlight := some ⟨x, .engine, false⟩ }
  (∀ (s : State) (p : Program),
    (∀ (a : SlotAddr) (w : SlotWrite), p.job = .slot a w → s.claimProgram p = s.makeClaim (bankOf a.seg) (.program p)) ∧
    (∀ g n : Nat, p.job = .stamp g n → g < 32 → s.claimProgram p = s.makeClaim (bankOf g) (.program p)) ∧
    ((∃ g n : Nat, p.job = .stamp g n ∧ 32 ≤ g) ∨ (∃ a n v, p.job = .cfgRecord a n v) ∨ (∃ a, p.job = .cfgVoid a) →
      s.claimProgram p = { s with cfgBank := { s.cfgBank with state := .programming }, program := some p })) ∧
  (∀ (s : State) (x : ReadTarget) (g : Nat), x = .header g ∨ (∃ n : Nat, x = .slot ⟨g, n⟩) →
    (g < 32 →
      s.claimRead x = s.makeClaim (bankOf g) (.read x) ∧
      (s.engineReads x = true ↔ ∃ counted : Bool, (s.bank (bankOf g)).inFlight = some ⟨x, .engine, counted⟩) ∧
      s.engineReadDone x = s.readDone (bankOf g)) ∧
    (32 ≤ g →
      s.claimRead x = { s with cfgBank := { s.cfgBank with inFlight := some x } } ∧
      (s.engineReads x = true ↔ s.cfgBank.inFlight = some x) ∧
      s.engineReadDone x = { s with cfgBank := { s.cfgBank with inFlight := none } })) ∧
  (∀ (s : State) (f : EraseRec → EraseRec),
    (∀ e : EraseRec, s.op = .erase e → s.mapErase f = { s with op := .erase (f e) }) ∧
    ((∀ e : EraseRec, s.op ≠ .erase e) → s.mapErase f = { s with suspended := s.suspended.map f })) ∧
  (∀ (s : State) (b : Bank) (c : Claim), readable (s.bank b) ∨ (s.bank b).state = .draining →
    (s.bank b).queue = [] → (s.bank b).inFlight = none → s.makeClaim b c = granted s b { s.bank b with marker := 0 } c) ∧
  (∀ (s : State) (b : Bank) (c : Claim) (r : InFlight), readable (s.bank b) ∨ (s.bank b).state = .draining →
    (s.bank b).inFlight = some r →
    s.makeClaim b c =
      s.setBank b { s.bank b with
        state := .draining
        inFlight := some { r with counted := true }
        queue := (s.bank b).queue.map (fun q => { q with counted := true })
        claim := some c
        marker := (s.bank b).queue.length + 1 }) ∧
  (∀ (s : State) (b : Bank) (c : Claim),
    (s.bank b).state = .programming ∨ (s.bank b).state = .eraseRunning ∨ (s.bank b).state = .suspendWait →
    s.makeClaim b c =
      s.setBank b { s.bank b with
        inFlight := (s.bank b).inFlight.map (fun r => { r with counted := true })
        queue := (s.bank b).queue.map (fun q => { q with counted := true })
        claim := some c
        marker := (s.bank b).queue.length + (if (s.bank b).inFlight = none then 0 else 1) }) ∧
  (∀ (s : State) (b : Bank) (c : Claim), SameKept s (s.makeClaim b c) ∧ SameKept s (s.release b) ∧ SameKept s (s.readDone b) ∧
    SameEgress s (s.makeClaim b c) ∧ SameEgress s (s.release b) ∧ SameEgress s (s.readDone b)) ∧
  (∀ (s : State) (b : Bank) (q : QueuedRead) (qs : List QueuedRead) (r : InFlight) (h : InHand), readable (s.bank b) →
    (s.bank b).inFlight = some r → r.counted = false → (s.bank b).queue = q :: qs → s.stages.get q.stage = .waitBank h →
    s.readDone b =
      (s.setBank b { s.bank b with inFlight := some ⟨.slot q.addr, .lookup q.stage, q.counted⟩, queue := qs }).setStage q.stage
        (.reading h)) ∧
  (∀ (s : State) (b : Bank) (q : QueuedRead) (qs : List QueuedRead) (r : InFlight) (h : InHand), (s.bank b).state = .draining →
    (s.bank b).inFlight = some r → r.counted = true → 2 ≤ (s.bank b).marker → (s.bank b).queue = q :: qs → q.counted = true →
    s.stages.get q.stage = .waitBank h →
    s.readDone b =
      (s.setBank b { s.bank b with
          marker := (s.bank b).marker - 1
          inFlight := some ⟨.slot q.addr, .lookup q.stage, true⟩
          queue := qs }).setStage q.stage (.reading h)) ∧
  (∀ (s : State) (b : Bank) (c : Claim) (r : InFlight), (s.bank b).state = .draining → (s.bank b).inFlight = some r →
    r.counted = true → (s.bank b).marker = 1 → (s.bank b).claim = some c →
    s.readDone b = granted s b { s.bank b with inFlight := none, marker := 0 } c) ∧
  (∀ (s : State) (b : Bank) (r : InFlight), (s.bank b).state = .draining → (s.bank b).inFlight = some r → r.counted = true →
    (s.bank b).marker = 1 → (s.bank b).claim = none →
    s.readDone b = (s.setBank b { s.bank b with state := rest (s.bank b), inFlight := none, marker := 0 }).startHead b) ∧
  (∀ (s : State) (b : Bank) (p : Port) (q : QueuedRead), (s.bank b).queue.find? (fun x => x.stage = p) = some q → q.counted = true →
    let u : BankUnit :=
      { s.bank b with queue := (s.bank b).queue.filter (fun x => x.stage ≠ p), marker := (s.bank b).marker - 1 }
    s.withdrawRead p b =
      (if u.state = .draining ∧ u.marker = 0 then
        match u.claim with
        | some c => granted (s.setBank b u) b u c
        | none => s.setBank b { u with state := rest u }
      else s.setBank b u).startHead b) ∧
  (∀ (s : State) (b : Bank), s.withdrawClaim b =
    (if (s.bank b).marker = 0 then (s.setBank b { s.bank b with state := rest (s.bank b), claim := none }).startHead b
     else s.setBank b { s.bank b with claim := none })) ∧
  (∀ (s : State) (b : Bank), (s.bank b).claim = none →
    s.release b = (s.setBank b { s.bank b with state := rest (s.bank b) }).startHead b) ∧
  (∀ (s : State) (b : Bank) (c : Claim), (s.bank b).claim = some c →
    s.release b =
      (if (s.bank b).marker = 0 then granted s b (s.bank b) c
       else (s.setBank b { s.bank b with state := .draining }).startHead b)) ∧
  ∀ (s : State) (b : Bank),
    ((s.bank b).inFlight ≠ none ∨ (s.bank b).queue = [] → s.startHead b = s) ∧
    ∀ (q : QueuedRead) (qs : List QueuedRead), (s.bank b).inFlight = none → (s.bank b).queue = q :: qs →
      (readable (s.bank b) ∨ ((s.bank b).state = .draining ∧ q.counted = true) →
        ∀ h : InHand, s.stages.get q.stage = .waitBank h →
          s.startHead b =
            (s.setBank b { s.bank b with inFlight := some ⟨.slot q.addr, .lookup q.stage, q.counted⟩, queue := qs }).setStage q.stage
              (.reading h)) ∧
      (¬ readable (s.bank b) → (s.bank b).state ≠ .draining ∨ q.counted = false → s.startHead b = s)

/-- The nine program completions and PROGRAM_DEADLINE_EXPIRY (R8, R9, R10, R18, R19, R22, Table 1-2): the program ends once, with
pass or fail, an expiry being a failed completion; passed, its slot or header holds what it wrote; failed, the slot is indeterminate
and the header unstamped; every other slot, configuration slot and header stands. The in-use count of the slot's segment (R64) goes
up with a first-step program of an entry that passed, and down with any other program made to a slot counted in use but a promotion
that passed; a program of the mount's repair, a stamp and a configuration program leave the counts alone. At the same event the bank
of the program is released, or the configuration bank FREE (R97, R102), and unless the bank takes up a claim held meanwhile no
program is in progress. -/
def Obligations.ProgramsEndOnceWithTheirResult : Prop :=
  (∀ (s : State) (p : Program) (pass : Bool),
    let t := s.endProgram p pass
    let ended : State := { s with store := t.store, segs := t.segs, program := none }
    (∀ g : Nat, (∃ n w, p.job = .slot ⟨g, n⟩ w) ∨ ((∃ n, p.job = .stamp g n) ∧ g < 32) →
      t = ended.release (bankOf g) ∧
      ((s.bank (bankOf g)).claim = none →
        t.program = none ∧ (t.bank (bankOf g)).claim = none ∧
        (t.bank (bankOf g)).state = if (s.bank (bankOf g)).suspended = none then .free else .eraseSuspended)) ∧
    ((∃ g n : Nat, p.job = .stamp g n ∧ 32 ≤ g) ∨ (∃ a n v, p.job = .cfgRecord a n v) ∨ (∃ a, p.job = .cfgVoid a) →
      t = { ended with cfgBank := { s.cfgBank with state := .free } })) ∧
  (∀ (s : State) (p : Program), s.program = some p →
    (∀ pass : Bool, exec (completionOf p.role pass) s =
      .next (((s.endProgram p pass).afterProgram p.role pass).engineNext).settle) ∧
    exec .programDeadlineExpiry s = exec (completionOf p.role false) s) ∧
  (∀ (s : State) (p : Program) (pass : Bool), (s.endProgram p pass).store = s.store.programmed p.job pass) ∧
  (∀ (m : Store) (a : SlotAddr) (w : SlotWrite) (pass : Bool), m.wf = true → a.slot < 64 →
    (m.programmed (.slot a w) pass).slot a = (if pass = true then w.passed (m.slot a) else .indeterminate) ∧
      m.SameButSlot (m.programmed (.slot a w) pass) a) ∧
  (∀ (m : Store) (g n : Nat) (pass : Bool), m.wf = true →
    (m.programmed (.stamp g n) pass).header g = (if pass = true then .stamped n else .unstamped) ∧
      (m.programmed (.stamp g n) pass).slots = m.slots ∧ (m.programmed (.stamp g n) pass).cfgSlots = m.cfgSlots ∧
      ∀ x, x ≠ g → (m.programmed (.stamp g n) pass).header x = m.header x) ∧
  (∀ (m : Store) (a : SlotAddr) (n : Nat) (v : ConfigRecord) (pass : Bool), m.wf = true →
    (m.programmed (.cfgRecord a n v) pass).cfgSlot a = (if pass = true then .live n v else .indeterminate) ∧
      (m.programmed (.cfgVoid a) pass).cfgSlot a = (if pass = true then .void else .indeterminate)) ∧
  (∀ (m : Store) (a : SlotAddr) (n : Nat) (v : ConfigRecord) (pass : Bool), m.wf = true → a.seg = 32 ∨ a.seg = 33 → a.slot < 16 →
    (∀ x : SlotAddr, x.seg = 32 ∨ x.seg = 33 → x.slot < 16 → x ≠ a →
      (m.programmed (.cfgRecord a n v) pass).cfgSlot x = m.cfgSlot x ∧ (m.programmed (.cfgVoid a) pass).cfgSlot x = m.cfgSlot x) ∧
    (m.programmed (.cfgRecord a n v) pass).slots = m.slots ∧ (m.programmed (.cfgRecord a n v) pass).headers = m.headers ∧
    (m.programmed (.cfgVoid a) pass).slots = m.slots ∧ (m.programmed (.cfgVoid a) pass).headers = m.headers) ∧
  (∀ (s : State) (p : Program) (a : SlotAddr) (w : SlotWrite) (pass : Bool), s.canonical = true → p.job = .slot a w →
    p.role ≠ .repair →
    (s.endProgram p pass).inUseOf a.seg =
      (match w with
       | .entry _ _ => if pass = true ∧ s.store.slot a = .blank then s.inUseOf a.seg + 1 else s.inUseOf a.seg
       | .seal _ _ => s.inUseOf a.seg
       | .promote => if pass = false ∧ (s.store.slot a).inUse = true then s.inUseOf a.seg - 1 else s.inUseOf a.seg
       | _ => if (s.store.slot a).inUse = true then s.inUseOf a.seg - 1 else s.inUseOf a.seg) ∧
      (∀ g : Nat, g ≠ a.seg → (s.endProgram p pass).seg g = s.seg g) ∧
      (s.endProgram p pass).seg a.seg = { s.seg a.seg with inUse := ((s.endProgram p pass).seg a.seg).inUse }) ∧
  (∀ (s : State) (p : Program) (pass : Bool), (∀ a w, p.job ≠ .slot a w) ∨ p.role = .repair → (s.endProgram p pass).segs = s.segs) ∧
  (∀ x : Slot, x.inUse = true ↔ ∃ (st : RecState) (n : Nat) (e : Entry), x = .written ⟨st, n, .entry e⟩ ∧ st ≠ .retired) ∧
  (∀ (n : Nat) (e : Entry), (SlotWrite.entry n e).passed .blank = .written ⟨.pending, n, .entry e⟩) ∧
  (∀ n k : Nat, (SlotWrite.seal n k).passed .blank = .written ⟨.live, n, .seal k⟩) ∧
  (∀ (n : Nat) (c : Content), SlotWrite.promote.passed (.written ⟨.pending, n, c⟩) = .written ⟨.live, n, c⟩) ∧
  (∀ (n : Nat) (c : Content) (st : RecState), SlotWrite.retire.passed (.written ⟨st, n, c⟩) = .written ⟨.retired, n, c⟩) ∧
  ∀ x : Slot, SlotWrite.void.passed x = .void

/-! ## The phases of a batch -/

/-- WRITE_PROGRAM_COMPLETION (R52, R53, R54): a pass issues the program of the next entry at the next slot, or past the last the
seal's; a fail records WRITE_FAULT and voids the entry's slot, then each earlier one. -/
def Obligations.WritePhaseProgramsEntriesThenTheSeal : Prop :=
  ∀ (s : State) (p : Program) (b : Batch) (k : Nat), s.program = some p → p.role = .write → s.batch? = some b → b.step = .write k →
    (∀ e, b.entries[k + 1]? = some e →
      exec (.writeProgramCompletion true) s =
        .next (((((s.endProgram p true).setBatch { b with phase := .write, step := .write (k + 1) }).bumpFill b.seg).claimProgram
          ⟨.write, .slot ⟨b.seg, b.first + (k + 1)⟩ (.entry b.issue e)⟩).engineNext).settle) ∧
    (b.entries[k + 1]? = none →
      exec (.writeProgramCompletion true) s =
        .next (((((s.endProgram p true).setBatch { b with phase := .seal, step := .seal }).bumpFill b.seg).claimProgram
          ⟨.seal, .slot ⟨b.seg, b.first + b.entries.length⟩ (.seal b.issue b.entries.length)⟩).engineNext).settle) ∧
    exec (.writeProgramCompletion false) s =
      .next (((((s.endProgram p false).addFault
          ⟨.writeFault, some b.seg, some (b.first + k), b.channelAt k, some b.issue, some b.origin⟩).setBatch
          { b with
            step := .voiding (b.first + k) (b.channelAt k)
              (⟨b.first + k, b.channelAt k⟩ :: (List.range k).map (fun i => ⟨b.first + i, b.channelAt i⟩)) }).claimProgram
        ⟨.void, .slot ⟨b.seg, b.first + k⟩ .void⟩).engineNext).settle

/-- SEAL_PROGRAM_COMPLETION (R26, R54, R55): a pass switches the index of every channel of the batch at one event, to the slot of
its ROUTE or to none for a WITHDRAW, keeps the positions before it as the predecessors, and issues the first step of SETTLE; a fail
records SEAL_FAULT and voids the seal slot, then each entry's. Every other position of the index stands. -/
def Obligations.SealSwitchesTheIndexAtOneEvent : Prop :=
  (∀ (s : State) (p : Program) (b : Batch) (e : Entry) (es : List Entry), s.program = some p → p.role = .seal → s.batch? = some b →
    b.step = .seal → b.entries = e :: es →
    (exec (.sealProgramCompletion true) s =
      .next (((((s.endProgram p true).switchIndex b).setBatch
          { b with
            phase := .settle
            step := .settle 0
              (if e.isRoute = true then .promote else if s.position e.channel = none then .retireOwn else .retirePred)
            preds := b.entries.map (fun x => s.position x.channel)
            faults := b.entries.map (fun _ => []) }).claimProgram
        (if e.isRoute = true then ⟨.settle, .slot ⟨b.seg, b.first⟩ .promote⟩
         else ⟨.settle, .slot ((s.position e.channel).getD ⟨b.seg, b.first⟩) .retire⟩)).engineNext).settle) ∧
    exec (.sealProgramCompletion false) s =
      .next (((((s.endProgram p false).addFault
          ⟨.sealFault, some b.seg, some (b.first + b.entries.length), none, some b.issue, some b.origin⟩).setBatch
          { b with
            step := .voiding (b.first + b.entries.length) none
              (⟨b.first + b.entries.length, none⟩ ::
                (List.range b.entries.length).map (fun i => ⟨b.first + i, b.channelAt i⟩)) }).claimProgram
        ⟨.void, .slot ⟨b.seg, b.first + b.entries.length⟩ .void⟩).engineNext).settle) ∧
  ∀ (s : State) (b : Batch), s.canonical = true → distinctChannels b.entries = true →
    (∀ (i : Nat) (e : Entry), b.entries[i]? = some e →
      (s.switchIndex b).position e.channel = (if e.isRoute = true then some ⟨b.seg, b.first + i⟩ else none)) ∧
    (∀ ch : Nat, (∀ e ∈ b.entries, e.channel ≠ ch) → (s.switchIndex b).position ch = s.position ch) ∧
    s.switchIndex b = { s with index := (s.switchIndex b).index }

/-- SETTLE_PROGRAM_COMPLETION (R56, R57, R58, R27, R60): a passed promotion is followed by the retire of the predecessor, if there
is one, a WITHDRAW's passed retire of its predecessor by its own retire, and any other pass by the next entry; a failed promotion
reverts the position to the predecessor and is voided, a failed retire is voided; each failure is recorded. -/
def Obligations.SettleWorksThroughTheEntries : Prop :=
  (∀ (s : State) (p : Program) (b : Batch) (k : Nat) (st : SettleStep) (e : Entry), s.program = some p → p.role = .settle →
    s.batch? = some b → b.step = .settle k st → b.entries[k]? = some e →
    (∀ x, st = .promote → b.predAt k = some x →
      exec (.settleProgramCompletion true) s =
        .next ((((s.endProgram p true).setBatch { b with phase := .settle, step := .settle k .retirePred }).claimProgram
          ⟨.settle, .slot x .retire⟩).engineNext).settle) ∧
    (st = .retirePred → e.isRoute = false →
      exec (.settleProgramCompletion true) s =
        .next ((((s.endProgram p true).setBatch { b with phase := .settle, step := .settle k .retireOwn }).claimProgram
          ⟨.settle, .slot ⟨b.seg, b.first + k⟩ .retire⟩).engineNext).settle) ∧
    ((st = .promote ∧ b.predAt k = none) ∨ (st = .retirePred ∧ e.isRoute = true) ∨ st = .retireOwn →
      exec (.settleProgramCompletion true) s = .next (((s.endProgram p true).settleEntry b (k + 1)).engineNext).settle) ∧
    (st = .promote →
      exec (.settleProgramCompletion false) s =
        .next ((((((s.endProgram p false).setPosition e.channel (b.predAt k)).addFault
            ⟨.promoteFault, some b.seg, some (b.first + k), some e.channel, some b.issue, some b.origin⟩).setBatch
            { b with phase := .settle, step := .settle k .voidOwn, faults := b.faults.modify k (fun f => f ++ [.promoteFault]) }).claimProgram
          ⟨.void, .slot ⟨b.seg, b.first + k⟩ .void⟩).engineNext).settle) ∧
    (∀ x, st = .retirePred → b.predAt k = some x →
      exec (.settleProgramCompletion false) s =
        .next (((((s.endProgram p false).addFault
            ⟨.retireFault, some x.seg, some x.slot, some e.channel, some b.issue, some b.origin⟩).setBatch
            { b with phase := .settle, step := .settle k .voidPred, faults := b.faults.modify k (fun f => f ++ [.retireFault]) }).claimProgram
          ⟨.void, .slot x .void⟩).engineNext).settle) ∧
    (st = .retireOwn →
      exec (.settleProgramCompletion false) s =
        .next (((((s.endProgram p false).addFault
            ⟨.retireFault, some b.seg, some (b.first + k), some e.channel, some b.issue, some b.origin⟩).setBatch
            { b with phase := .settle, step := .settle k .voidOwn, faults := b.faults.modify k (fun f => f ++ [.retireFault]) }).claimProgram
          ⟨.void, .slot ⟨b.seg, b.first + k⟩ .void⟩).engineNext).settle)) ∧
  (∀ (s : State) (b : Batch) (k : Nat) (e : Entry), b.entries[k]? = some e →
    s.settleEntry b k =
      (let st : SettleStep := if e.isRoute = true then .promote else if b.predAt k = none then .retireOwn else .retirePred
       (s.setBatch { b with phase := .settle, step := .settle k st }).claimProgram
         (if e.isRoute = true then ⟨.settle, .slot ⟨b.seg, b.first + k⟩ .promote⟩
          else ⟨.settle, .slot ((b.predAt k).getD ⟨b.seg, b.first + k⟩) .retire⟩))) ∧
  ∀ (s : State) (b x : Batch) (k : Nat), s.op = .commit x → b.entries[k]? = none →
    s.settleEntry b k =
      (let t := if b.faults.all (fun f => f.isEmpty) = true then
            s.replyStored b.origin .commit .done (byte4 b.issue ++ byte1 b.seg ++ byte1 b.first)
          else
            s.replyStored b.origin .commit .settleFault
              (byte4 b.issue ++ byte1 b.seg ++ byte1 b.first ++ byte1 (b.faults.countP (fun f => !f.isEmpty)) ++
                (settleItems b.entries b.faults).flatten)
       { t with op := .idle })

/-- VOID_PROGRAM_COMPLETION (R53, R55, R59, R85): a pass goes on to the next slot to be voided, and past the last the commit ends
with WRITE_FAULT or SEAL_FAULT, and the RECLAIM whose relocation batch it was ends with the same status, the issue and the segment
of the failed batch; a fail records VOID_FAULT, makes an OPEN, FILLED or FAULTED segment FAULTED, and goes on in the same way. In
SETTLE the next step of the entry, or the next entry, follows. -/
def Obligations.VoidProgramsFollowAFailure : Prop :=
  (∀ (s : State) (p : Program) (b : Batch) (fs : Nat) (ch : Option Nat) (x : VoidTarget) (xs : List VoidTarget) (pass : Bool),
    s.program = some p → p.role = .void → s.batch? = some b → b.step = .voiding fs ch (x :: xs) →
    let t := if pass = true then s.endProgram p true
      else ((s.endProgram p false).addFault
        ⟨.voidFault, some b.seg, some x.slot, x.channel, some b.issue, some b.origin⟩).faultSegment b.seg
    let b1 : Batch := if pass = true then b else { b with voidFails := b.voidFails + 1 }
    (∀ y ys, xs = y :: ys →
      exec (.voidProgramCompletion pass) s =
        .next (((t.setBatch { b1 with step := .voiding fs ch (y :: ys) }).claimProgram
          ⟨.void, .slot ⟨b.seg, y.slot⟩ .void⟩).engineNext).settle) ∧
    (xs = [] → s.op = .commit b →
      exec (.voidProgramCompletion pass) s =
        .next (({ (if b.phase = .write then
              t.replyStored b.origin .commit .writeFault
                (byte4 b.issue ++ byte1 b.seg ++ byte1 fs ++ byte2 (ch.getD 0) ++ byte1 b1.voidFails)
            else
              t.replyStored b.origin .commit .sealFault (byte4 b.issue ++ byte1 b.seg ++ byte1 fs ++ byte1 b1.voidFails)) with
            op := .idle } : State).engineNext).settle) ∧
    (∀ r : ReclaimRec, xs = [] → s.op = .reclaim r →
      exec (.voidProgramCompletion pass) s =
        .next (({ t.replyStored r.origin .reclaim (if b.phase = .write then .writeFault else .sealFault)
            (reclaimResultBytes { seg := r.seg, tallies := some r.tallies, failedIssue := some b.issue, failedSeg := some b.seg }) with
            op := .idle } : State).engineNext).settle)) ∧
  (∀ (s : State) (p : Program) (b : Batch) (k : Nat) (e : Entry) (pass : Bool), s.program = some p → p.role = .void →
    s.batch? = some b → b.entries[k]? = some e →
    let t := fun a : SlotAddr => if pass = true then s.endProgram p true
      else ((s.endProgram p false).addFault
        ⟨.voidFault, some a.seg, some a.slot, some e.channel, some b.issue, some b.origin⟩).faultSegment a.seg
    let b1 : Batch := if pass = true then b else { b with faults := b.faults.modify k (fun f => f ++ [.voidFault]) }
    (b.step = .settle k .voidOwn →
      exec (.voidProgramCompletion pass) s = .next (((t ⟨b.seg, b.first + k⟩).settleEntry b1 (k + 1)).engineNext).settle) ∧
    (∀ x, b.step = .settle k .voidPred → b.predAt k = some x →
      exec (.voidProgramCompletion pass) s =
        .next ((if e.isRoute = true then (t x).settleEntry b1 (k + 1)
            else
              ((t x).setBatch { b1 with phase := .settle, step := .settle k .retireOwn }).claimProgram
                ⟨.settle, .slot ⟨b.seg, b.first + k⟩ .retire⟩).engineNext).settle)) ∧
  ∀ (s : State) (g : Nat), s.faultSegment g =
    (if (s.seg g).state = some .opened ∨ (s.seg g).state = some .filled ∨ (s.seg g).state = some .faulted then
      s.setSeg g { s.seg g with state := some .faulted }
     else s)

/-! ## Erase and reclaim -/

/-- ERASE_COMPLETION and STAMP_PROGRAM_COMPLETION (R10, R11, R70, R71, R78, R88): the completion leaves every slot of the segment
BLANK and its header unprogrammed, adds one to the erase count, and claims the stamp program; a stamp that passed makes the segment
CLEAN with fill pointer and in-use count 0, one that failed makes it TORN and is recorded; either ends the erase with its reply. -/
def Obligations.EraseCompletionIsStampedAndAnswered : Prop :=
  (∀ (s : State) (e : EraseRec) (us : Nat), s.canonical = true → s.op = .erase e →
    e.step = .running ∨ e.step = .waiting ∨ (e.step = .suspending ∧ e.held = []) →
    exec (.eraseCompletion us) s =
      .next (((({ s with
            store := s.store.erased e.seg
            op := .erase { e with activeUs := e.activeUs + us, step := .stamping, runTimer := false } } : State).setSeg e.seg
            { s.seg e.seg with erases := some (s.erasesOf e.seg + 1) }).release (bankOf e.seg)).claimProgram
        ⟨.stamp, .stamp e.seg (s.erasesOf e.seg + 1)⟩).settle) ∧
  (∀ (m : Store) (g : Nat), m.wf = true → g < 32 →
    (∀ n, n < 64 → (m.erased g).slot ⟨g, n⟩ = .blank) ∧ (m.erased g).header g = .unstamped ∧ m.SameOutsideSegment (m.erased g) g) ∧
  ∀ (s : State) (p : Program) (e : EraseRec) (pass : Bool), s.program = some p → p.role = .stamp →
    (s.endProgram p pass).op = .erase e →
    let u := s.endProgram p pass
    let c := some (u.erasesOf e.seg)
    let a := some e.activeUs
    let n := some e.suspensions
    let v := if pass = true then (u.setSegFill e.seg .clean 0).setInUse e.seg 0
      else (u.setSegFill e.seg .torn 0).addFault ⟨.stampFault, some e.seg, none, none, none, some e.origin⟩
    exec (.stampProgramCompletion pass) s =
      .next (({ (match e.reclaim with
          | none =>
            v.replyStored e.origin .erase (if pass = true then .done else .eraseFault)
              (eraseResultBytes
                { seg := e.seg, cause := if pass = true then none else some .stampFault, erases := c, activeUs := a, suspensions := n })
          | some w =>
            v.replyStored e.origin .reclaim (if pass = true then .done else .eraseFault)
              (reclaimResultBytes
                { seg := e.seg, tallies := some w, cause := if pass = true then none else some .stampFault, erases := c })) with
          op := .idle } : State).engineNext).settle

/-- SUSPEND_COMPLETION, STOP_COMPLETION and a completion that finds a mark held (R69, R73, R77, R78, R88): with no mark held the
erase is SUSPENDED, counted, and its bank serves reads; a stop, or the mark taken first, ends it: the segment is TORN, its cells
indeterminate when the erase had begun, the record and the reply of the ERASE or RECLAIM say why, and the bank is freed, or goes on
with other work that it has. The record of the erase, of the current operation or of the suspended-erase record (R116), is
discarded. That a suspension is counted at the suspend completion that finds a mark held, and none at the erase completion, is the
model's reading (log 28). -/
def Obligations.ErasesSuspendOrEndTorn : Prop :=
  (∀ (s : State) (e : EraseRec) (us : Nat), s.op = .erase e → e.step = .suspending →
    (e.held = [] →
      exec (.suspendCompletion us) s =
        .next ((((({ s with
              op := .erase
                { e with activeUs := e.activeUs + us, step := .suspended, suspensions := e.suspensions + 1, runTimer := false } } :
              State).setBank (bankOf e.seg) { s.bank (bankOf e.seg) with suspended := some e.seg }).release (bankOf e.seg)).engineNext).settle)) ∧
    ∀ c cs, e.held = c :: cs →
      exec (.suspendCompletion us) s =
        .next ((s.eraseStopped c { e with activeUs := e.activeUs + us, suspensions := e.suspensions + 1 }).engineNext).settle ∧
      exec (.eraseCompletion us) s = .next ((s.eraseStopped c { e with activeUs := e.activeUs + us }).engineNext).settle) ∧
  (∀ (s : State) (e : EraseRec) (c : StopCause) (us : Nat), s.op = .erase e → e.step = .stopping c →
    exec (.stopCompletion us) s = .next ((s.eraseStopped c { e with activeUs := e.activeUs + us }).engineNext).settle) ∧
  (∀ (s : State) (e : EraseRec), e.step ≠ .stamping →
    let bank := fun u : State => if e.step = .claimed then u.withdrawClaim (bankOf e.seg) else u.releaseErase (bankOf e.seg)
    let f := bank
      (({ s with store := if e.step = .claimed then s.store else s.store.torn e.seg } : State).setSeg e.seg
        { s.seg e.seg with state := some .torn, fill := some 0 })
    let answer := fun (kind : FaultKind) (st : Status) (cause : Option FailureCause) (erases : Option Nat) =>
      let u := f.addFault ⟨kind, some e.seg, none, none, none, some e.origin⟩
      match e.reclaim with
      | none =>
        u.replyStored e.origin .erase st
          (eraseResultBytes
            { seg := e.seg, cause := cause, erases := erases, activeUs := some e.activeUs, suspensions := some e.suspensions })
      | some w =>
        u.replyStored e.origin .reclaim st (reclaimResultBytes { seg := e.seg, tallies := some w, cause := cause, erases := erases })
    let ended := fun u : State =>
      match s.op with
      | .erase _ => ({ u with op := .idle } : State)
      | _ => { u with suspended := none }
    s.eraseStopped .timeout e = ended (answer .eraseTimeout .eraseFault (some .eraseTimeout) (some (s.erasesOf e.seg))) ∧
      s.eraseStopped .abandon e = ended (answer .eraseAborted .abandoned none none)) ∧
  (∀ (s : State) (b : Bank), s.releaseErase b =
    (if (s.bank b).state = .draining ∨ (s.bank b).state = .programming then s.setBank b { s.bank b with suspended := none }
     else (s.setBank b { s.bank b with suspended := none }).release b)) ∧
  ∀ (m : Store) (g : Nat), m.wf = true → g < 32 →
    (∀ n, n < 64 → (m.torn g).slot ⟨g, n⟩ = .indeterminate) ∧ (m.torn g).header g = .unstamped ∧ m.SameOutsideSegment (m.torn g) g

/-- ERASE_TIMEOUT_EXPIRY and RUN_INTERVAL_TIMER_EXPIRY (R69, R73): the timeout of a RUNNING or WAITING erase requests its stop, and
is held while SUSPENDING; the end of the run interval is looked at while WAITING: a reason that stands requests suspension, else the
erase runs on; otherwise the timer only ends. -/
def Obligations.EraseTimersStopHoldOrLookAgain : Prop :=
  (∀ (s : State) (e : EraseRec), s.op = .erase e →
    (e.step = .running ∨ e.step = .waiting →
      exec .eraseTimeoutExpiry s = .next { s with op := .erase { e with step := .stopping .timeout, runTimer := false } }) ∧
    (e.step = .suspending →
      exec .eraseTimeoutExpiry s =
        .next { s with op := .erase { e with held := if .timeout ∈ e.held then e.held else e.held ++ [.timeout] } })) ∧
  ∀ (s : State) (e : EraseRec), s.op = .erase e → e.runTimer = true →
    (e.step = .waiting →
      exec .runIntervalTimerExpiry s =
        .next (if (s.bank (bankOf e.seg)).queue ≠ [] ∨ s.urgentHead = true then
            ({ s with op := .erase { e with step := .suspending, runTimer := false } } : State).setBank (bankOf e.seg)
              { s.bank (bankOf e.seg) with state := .suspendWait }
          else
            ({ s with op := .erase { e with step := .running, runTimer := false } } : State).setBank (bankOf e.seg)
              { s.bank (bankOf e.seg) with state := .eraseRunning })) ∧
    (e.step ≠ .waiting → exec .runIntervalTimerExpiry s = .next { s with op := .erase { e with runTimer := false } })

/-- SOURCE_READ_COMPLETION (R82, R83, R87): a source that passes its check gives an entry image, one that fails is skipped and
counted; an abandoned RECLAIM ends; else the next source is read, or after the last the batch is started with the images formed, the
next group being gathered when there are none. The start of a relocation batch (R83) checks the space and the issue counter as a
commit does, and no guarded range; it is refused NO_SPACE or ISSUE_EXHAUSTED, which ends the RECLAIM, or takes the issue number and
places its batch. -/
def Obligations.SourceReadsFormTheRelocationBatch : Prop :=
  (∀ (s : State) (r : ReclaimRec) (x : Source) (rest : List Source) (images : List Entry) (lost : Bool), s.op = .reclaim r →
    r.stage = .reading (x :: rest) images → s.engineReads (.slot ⟨r.seg, x.slot⟩) = true →
    let u := s.engineReadDone (.slot ⟨r.seg, x.slot⟩)
    let found := routeCheck (s.readSlotResult ⟨r.seg, x.slot⟩ lost) x.channel
    let images1 := match found with
      | some f => images ++ [⟨x.channel, .route f⟩]
      | none => images
    let r1 : ReclaimRec := if found = none then { r with tallies := { r.tallies with skipped := r.tallies.skipped + 1 } } else r
    exec (.sourceReadCompletion lost) s =
      .next ((if r.abandoned = true then
          { (u.replyStored r.origin .reclaim .abandoned (reclaimResultBytes { seg := r.seg, tallies := some r1.tallies })) with op := .idle }
        else
          match rest with
          | y :: ys =>
            ({ u with op := .reclaim { r1 with stage := .reading (y :: ys) images1 } } : State).claimRead (.slot ⟨r.seg, y.slot⟩)
          | [] => if images1 = [] then u.relocateNext r1 else u.startRelocation r1 images1).engineNext).settle) ∧
  ∀ (s : State) (r : ReclaimRec) (e : Entry) (es : List Entry), s.canonical = true → s.atMostOneOpen = true →
    let n := es.length + 2
    (s.placement n = .noRoom →
      s.startRelocation r (e :: es) =
        { s.replyStored r.origin .reclaim .noSpace
            (reclaimResultBytes { seg := r.seg, tallies := some r.tallies, needed := some n }) with op := .idle }) ∧
    (s.placement n ≠ .noRoom → 4294967295 ≤ s.issueNow →
      s.startRelocation r (e :: es) =
        { s.replyStored r.origin .reclaim .issueExhausted (reclaimResultBytes { seg := r.seg, tallies := some r.tallies }) with
          op := .idle }) ∧
    ∀ i : Nat, s.issue = some i → i < 4294967295 →
      (∀ g, s.placement n = .inOpen → s.openSeg = some g →
        s.startRelocation r (e :: es) =
          (({ s with
              issue := some (i + 1)
              op := .reclaim
                { r with stage := .writing ⟨r.origin, e :: es, i, g, s.fillOf g, .write, .write 0, [], [], 0⟩ } } : State).setSeg g
            { s.seg g with fill := some (s.fillOf g + 1) }).claimProgram ⟨.write, .slot ⟨g, s.fillOf g⟩ (.entry i e)⟩) ∧
      ∀ g, s.placement n = .inFresh g →
        ∃ t : State, s.startRelocation r (e :: es) = t.claimProgram ⟨.write, .slot ⟨g, 0⟩ (.entry i e)⟩ ∧
          t.issue = some (i + 1) ∧
          t.op = .reclaim { r with stage := .writing ⟨r.origin, e :: es, i, g, 0, .write, .write 0, [], [], 0⟩ } ∧
          t.seg g = { s.seg g with state := some .opened, fill := some 1 } ∧
          (∀ f, s.openSeg = some f → t.seg f = { s.seg f with state := some .filled }) ∧
          (∀ f, f ≠ g → s.openSeg ≠ some f → t.seg f = s.seg f) ∧
          t = { s with issue := t.issue, op := t.op, segs := t.segs }

/-- A RECLAIM that the engine starts (R80, R81, R84, R86): a CLEAN or TORN segment is refused, an OPEN one becomes FILLED; the group
gathered is the first 16 of the slots of the segment at or above the cursor that positions name, in slot order; its first source is
read, or, with none, the start checks of an erase follow. A batch settled adds to the tallies and gathers the next group. -/
def Obligations.ReclaimGathersRelocatesAndErases : Prop :=
  (∀ (s : State) (o : Origin) (g : Nat),
    let r : ReclaimRec := ⟨g, o, 0, ⟨0, 0, 0, 0⟩, false, .reading [] []⟩
    ((s.seg g).state = some .opened →
      s.startRequest ⟨o, .reclaim g⟩ = (s.setSeg g { s.seg g with state := some .filled }).relocateNext r) ∧
    ((s.seg g).state = some .filled ∨ (s.seg g).state = some .faulted → s.startRequest ⟨o, .reclaim g⟩ = s.relocateNext r) ∧
    ((s.seg g).state = some .clean ∨ (s.seg g).state = some .torn →
      s.startRequest ⟨o, .reclaim g⟩ =
        s.replyStored o .reclaim .segmentState (reclaimResultBytes { seg := g, state := (s.seg g).state }))) ∧
  (∀ (s : State) (r : ReclaimRec),
    (s.gather r.seg r.cursor = [] →
      s.relocateNext r =
        (if s.inUseOf r.seg ≠ 0 then
          { (s.replyStored r.origin .reclaim .segmentInUse
              (reclaimResultBytes { seg := r.seg, tallies := some r.tallies, inUse := some (s.inUseOf r.seg) })) with op := .idle }
        else if 100000 ≤ s.erasesOf r.seg then
          { (s.replyStored r.origin .reclaim .worn
              (reclaimResultBytes { seg := r.seg, tallies := some r.tallies, erases := some (s.erasesOf r.seg) })) with op := .idle }
        else
          ({ s.setSeg r.seg { s.seg r.seg with state := some .erasing } with
              op := .erase ⟨r.seg, r.origin, some r.tallies, .claimed, 0, 0, false, []⟩ } : State).makeClaim (bankOf r.seg)
            (.erase r.seg))) ∧
    ∀ (xs : List Source) (x : Source), s.gather r.seg r.cursor = xs ++ [x] →
      s.relocateNext r =
        ({ s with op := .reclaim { r with cursor := x.slot + 1, stage := .reading (xs ++ [x]) [] } } : State).claimRead
          (.slot ⟨r.seg, ((xs ++ [x]).headD x).slot⟩)) ∧
  (∀ (s : State) (g c : Nat), s.canonical = true →
    (s.gather g c).length ≤ 16 ∧ (s.gather g c).Pairwise (fun x y => x.slot ≤ y.slot) ∧
    (∀ x ∈ s.gather g c, s.position x.channel = some ⟨g, x.slot⟩ ∧ c ≤ x.slot) ∧
    ∀ ch n : Nat, s.position ch = some ⟨g, n⟩ → c ≤ n →
      (⟨n, ch⟩ : Source) ∈ s.gather g c ∨ ((s.gather g c).length = 16 ∧ ∀ x ∈ s.gather g c, x.slot ≤ n)) ∧
  ∀ (s : State) (r : ReclaimRec) (b : Batch) (k : Nat), s.op = .reclaim r → b.entries[k]? = none →
    let t : Tallies :=
      ⟨r.tallies.moved + (b.entries.length - b.faults.countP (fun f => decide (FaultKind.promoteFault ∈ f))), r.tallies.skipped,
        r.tallies.sealed + 1, r.tallies.settleFaulted + b.faults.countP (fun f => decide (f ≠ []))⟩
    s.settleEntry b k =
      (if r.abandoned = true then
        { (s.replyStored r.origin .reclaim .abandoned (reclaimResultBytes { seg := r.seg, tallies := some t })) with op := .idle }
      else s.relocateNext { r with tallies := t })

/-! ## Configuration writes -/

/-- A SET CONFIG that the engine starts (R167, R168, R169): BAD_REQUEST with the first failing field, GUARDED when the new guarded
range leaves out a channel of the one in force without GUARD RELEASE, ISSUE_EXHAUSTED; one that passes writes to an OPEN segment
with room, else opens a CLEAN candidate, else begins the rotation erase of a candidate, or ends WORN. That ISSUE_EXHAUSTED sends the
whole result layout with every field absent is the model's reading (log 15); that the fill pointer of the TORN target is 0 is log
18. -/
def Obligations.SetConfigStartsWhenItsChecksPass : Prop :=
  (∀ old new : ConfigRecord,
    narrows old new = true ↔
      ∃ ch : Nat, (old.guardLow ≤ ch ∧ ch ≤ old.guardHigh) ∧ ¬ (new.guardLow ≤ ch ∧ ch ≤ new.guardHigh)) ∧
  ∀ (s : State) (o : Origin) (img : ConfigImage),
    (∀ field : Nat, configOfImage img = .error field →
      s.startRequest ⟨o, .setConfig img⟩ =
        { s.replyStored o .setConfig .badRequest (setConfigResultBytes { field := some field }) with op := .idle }) ∧
    ∀ c : ConfigRecord, configOfImage img = .ok c →
      (narrows s.config.values c = true → s.guardRelease = false →
        s.startRequest ⟨o, .setConfig img⟩ =
          { s.replyStored o .setConfig .guarded
              (setConfigResultBytes { guardLow := some s.config.values.guardLow, guardHigh := some s.config.values.guardHigh }) with
            op := .idle }) ∧
      (narrows s.config.values c = false ∨ s.guardRelease = true →
        (4294967295 ≤ s.issueNow →
          s.startRequest ⟨o, .setConfig img⟩ =
            { s.replyStored o .setConfig .issueExhausted (setConfigResultBytes {}) with op := .idle }) ∧
        (s.issueNow < 4294967295 →
          let w : ConfigWrite := ⟨o, c, .erasing, none, false, none, none, 0⟩
          let candidate := fun g : CfgSeg => s.config.source.map (fun x => x.addr.seg) ≠ some g.id
          let lessWorn := fun g h : CfgSeg => s.erasesOf g.id < s.erasesOf h.id ∨ (s.erasesOf g.id = s.erasesOf h.id ∧ g = .ca)
          (∀ g, s.openCfgSeg = some g → s.fillOf g.id < 16 → s.startRequest ⟨o, .setConfig img⟩ = s.beginConfigWrite w) ∧
          ((∀ g, s.openCfgSeg = some g → 16 ≤ s.fillOf g.id) →
            (∀ g : CfgSeg, candidate g → s.segIs g.id .clean = true →
              (∀ h : CfgSeg, h ≠ g → candidate h → s.segIs h.id .clean = true → lessWorn g h) →
              s.startRequest ⟨o, .setConfig img⟩ = (s.openConfigSegment g).beginConfigWrite w) ∧
            ∀ g : CfgSeg, (∀ h : CfgSeg, candidate h → s.segIs h.id .clean = false) → candidate g →
              (∀ h : CfgSeg, h ≠ g → candidate h →
                (s.segIs g.id .torn = true ∧ s.segIs h.id .torn = false) ∨
                  (s.segIs g.id .torn = s.segIs h.id .torn ∧ lessWorn g h)) →
              s.startRequest ⟨o, .setConfig img⟩ =
                (if 100000 ≤ s.erasesOf g.id then
                  { s.replyStored o .setConfig .worn
                      (setConfigResultBytes { seg := some g.id, erases := some (s.erasesOf g.id) }) with op := .idle }
                else
                  { s.setSeg g.id { s.seg g.id with state := some .torn, fill := some 0 } with
                    cfgBank := { s.cfgBank with state := .eraseRunning }
                    op := .configWrite { w with target := some g, rotated := true } }))))

/-- The rotation of the configuration segments (R170, R171): CONFIG_ERASE_COMPLETION counts the erase and starts the stamp program;
CONFIG_ERASE_TIMEOUT requests a stop; CONFIG_STOP_COMPLETION ends the SET CONFIG with CONFIG_FAULT and the target TORN;
CONFIG_STAMP_COMPLETION opens the target and begins the write, or ends the SET CONFIG with CONFIG_FAULT. A completed erase leaves
every slot of the target BLANK, a stopped one every slot indeterminate, its header unstamped, and everything else of the store
standing (R10, R22). A segment that is opened is OPEN with fill pointer 0 and another that was OPEN is FILLED at the same event, and
nothing else changes (R169, R170); the OPEN configuration segment is the one whose state is OPEN (R163). -/
def Obligations.RotationErasesStampsAndOpens : Prop :=
  (∀ s : State, s.atMostOneOpenCfg = true → ∀ g : CfgSeg, s.openCfgSeg = some g ↔ (s.seg g.id).state = some .opened) ∧
  (∀ (s : State) (g : CfgSeg), s.canonical = true → s.atMostOneOpenCfg = true →
    (s.openConfigSegment g).seg g.id = { s.seg g.id with state := some .opened, fill := some 0 } ∧
    (∀ h : CfgSeg, h ≠ g → (s.openConfigSegment g).seg h.id =
      (if (s.seg h.id).state = some .opened then { s.seg h.id with state := some .filled } else s.seg h.id)) ∧
    (∀ x : Nat, x ≠ 32 → x ≠ 33 → (s.openConfigSegment g).seg x = s.seg x) ∧
    s.openConfigSegment g = { s with segs := (s.openConfigSegment g).segs }) ∧
  (∀ (s : State) (w : ConfigWrite) (g : CfgSeg), s.canonical = true → s.op = .configWrite w → w.target = some g →
    (w.step = .erasing →
      exec .configEraseCompletion s =
        .next (({ s with
            store := s.store.erased g.id
            op := .configWrite { w with step := .stamping }
            cfgBank := { s.cfgBank with state := .programming }
            program := some ⟨.configStamp, .stamp g.id (s.erasesOf g.id + 1)⟩ } : State).setSeg g.id
            { s.seg g.id with erases := some (s.erasesOf g.id + 1) })) ∧
    (w.step = .erasing → exec .configEraseTimeout s = .next { s with op := .configWrite { w with step := .stopping } }) ∧
    (w.step = .stopping →
      exec .configStopCompletion s =
        .next (({ ((({ s with store := s.store.torn g.id, cfgBank := { s.cfgBank with state := .free } } : State).addFault
            ⟨.configFault, some g.id, none, none, none, some w.origin⟩).replyStored w.origin .setConfig .configFault
            (setConfigResultBytes { seg := some g.id, cause := some .eraseTimeout, erases := some (s.erasesOf g.id) })) with
            op := .idle } : State).engineNext).settle) ∧
    ∀ p : Program, s.program = some p → p.role = .configStamp →
      exec (.configStampCompletion true) s =
        .next ((((s.endProgram p true).openConfigSegment g).beginConfigWrite w).engineNext).settle ∧
      exec (.configStampCompletion false) s =
        .next (({ (((s.endProgram p false).addFault ⟨.configFault, some g.id, none, none, none, some w.origin⟩).replyStored w.origin
            .setConfig .configFault
            (setConfigResultBytes
              { seg := some g.id, cause := some .stampFault, erases := some ((s.endProgram p false).erasesOf g.id) })) with
            op := .idle } : State).engineNext).settle) ∧
  ∀ (m : Store) (g : CfgSeg), m.wf = true →
    (∀ n : Nat, n < 16 →
      (m.erased g.id).cfgSlot ⟨g.id, n⟩ = .blank ∧ (m.torn g.id).cfgSlot ⟨g.id, n⟩ = .indeterminate) ∧
    (m.erased g.id).header g.id = .unstamped ∧ (m.torn g.id).header g.id = .unstamped ∧
    (m.erased g.id).slots = m.slots ∧ (m.torn g.id).slots = m.slots ∧
    (∀ x : Nat, x ≠ g.id → (m.erased g.id).header x = m.header x ∧ (m.torn g.id).header x = m.header x) ∧
    ∀ x : SlotAddr, x.seg = 32 ∨ x.seg = 33 → x.seg ≠ g.id → x.slot < 16 →
      (m.erased g.id).cfgSlot x = m.cfgSlot x ∧ (m.torn g.id).cfgSlot x = m.cfgSlot x

/-- The write of a configuration record (R172, R173): it takes the issue number and the slot at the fill pointer of the OPEN
segment; CONFIG_WRITE_COMPLETION with pass puts the record in force, with fail records CONFIG_FAULT and voids the slot;
CONFIG_VOID_COMPLETION ends the SET CONFIG with CONFIG_FAULT. -/
def Obligations.ConfigWriteReplacesTheRecordInForce : Prop :=
  (∀ (s : State) (w : ConfigWrite) (g : CfgSeg), s.openCfgSeg = some g →
    s.beginConfigWrite w =
      ({ s with
          issue := some (s.issueNow + 1)
          op := .configWrite { w with step := .writing, issue := some s.issueNow, slot := some ⟨g.id, s.fillOf g.id⟩ }
          cfgBank := { s.cfgBank with state := .programming }
          program := some ⟨.configWrite, .cfgRecord ⟨g.id, s.fillOf g.id⟩ s.issueNow w.new⟩ } : State).setSeg g.id
        { s.seg g.id with fill := some (s.fillOf g.id + 1) }) ∧
  ∀ (s : State) (p : Program) (w : ConfigWrite) (a : SlotAddr) (n : Nat), s.program = some p → s.op = .configWrite w →
    w.slot = some a → w.issue = some n →
    (p.role = .configWrite →
      exec (.configWriteCompletion true) s =
        .next (({ (({ s.endProgram p true with config := ⟨w.new, some ⟨n, a⟩⟩ } : State).replyStored w.origin .setConfig .done
            (setConfigResultBytes
              { issue := some n, seg := some a.seg, slot := some a.slot, rotated := w.rotated,
                erases := if w.rotated = true then some ((s.endProgram p true).erasesOf a.seg) else none })) with
            op := .idle } : State).engineNext).settle ∧
      exec (.configWriteCompletion false) s =
        .next (({ (s.endProgram p false).addFault ⟨.configFault, some a.seg, some a.slot, none, some n, some w.origin⟩ with
            op := .configWrite { w with step := .voiding }
            cfgBank := { (s.endProgram p false).cfgBank with state := .programming }
            program := some ⟨.configVoid, .cfgVoid a⟩ } : State).engineNext).settle) ∧
    (p.role = .configVoid → ∀ pass : Bool,
      exec (.configVoidCompletion pass) s =
        .next (({ ((if pass = true then s.endProgram p true
              else (s.endProgram p false).addFault ⟨.voidFault, some a.seg, some a.slot, none, some n, some w.origin⟩).replyStored
            w.origin .setConfig .configFault
            (setConfigResultBytes
              { issue := some n, seg := some a.seg, slot := some a.slot, cause := some .write,
                voidFails := some (w.voidFails + if pass = true then 0 else 1) })) with
            op := .idle } : State).engineNext).settle)

/-! ## The mount -/

/-- HEADER_READ_COMPLETION and SLOT_SCAN_READ_COMPLETION (R185, R186): each result is recorded and the next read claimed, headers in
segment order, slots of stamped segments in order; after the last header every erase count is set, to the recorded count of a
stamped header and to the largest of its bank class for an unstamped one (R11), after the last slot RESOLVE follows. A route slot is
recorded as it reads; a configuration slot as its state alone when BLANK or VOID, as its record when that is one that R163 and Table
9-1 allow, and MARGIN_FAIL else. -/
def Obligations.MountScansHeadersThenSlots : Prop :=
  (recordOfRead .blank = .blank ∧ recordOfRead .void = .void ∧ recordOfRead .marginFail = .indeterminate ∧
    ∀ r : SlotRecord, recordOfRead (.record r) = .written r) ∧
  ((∀ v : CfgSlot, readCfgCells v true = .indeterminate) ∧ readCfgCells .blank false = .blank ∧ readCfgCells .void false = .void ∧
    readCfgCells .indeterminate false = .indeterminate ∧
    ∀ (n : Nat) (c : ConfigRecord), readCfgCells (.live n c) false =
      (if 1 ≤ n ∧ n ≤ 4294967294 ∧ c.station ≤ 65534 ∧ 1 ≤ c.holdLimit ∧ c.holdLimit ≤ 255 ∧ 1 ≤ c.guardLow ∧ c.guardLow ≤ 4095 ∧
          c.guardHigh ≤ 4095 then .live n c
       else .indeterminate)) ∧
  (∀ (s : State) (headers : List (Option Nat)), s.canonical = true →
    s.setAllErases headers = { s with segs := (s.setAllErases headers).segs } ∧
    (∀ g : Nat, 34 ≤ g → (s.setAllErases headers).seg g = s.seg g) ∧
    ∀ g : Nat, g < 34 → ∃ count : Nat, (s.setAllErases headers).seg g = { s.seg g with erases := some count } ∧
      (∀ n : Nat, headers[g]? = some (some n) → count = n) ∧
      ((∀ n : Nat, headers[g]? ≠ some (some n)) →
        (∀ x n : Nat, x < 34 → (x < 32 ↔ g < 32) → headers[x]? = some (some n) → n ≤ count) ∧
        (count = 0 ∨ ∃ x : Nat, x < 34 ∧ (x < 32 ↔ g < 32) ∧ headers[x]? = some (some count)))) ∧
  (∀ (s : State) (m : Mount) (lost : Bool), s.op = .mount m → m.phase = .headerScan →
    s.engineReads (.header m.headers.length) = true →
    let r := match s.store.header m.headers.length with
      | .stamped n => if lost = true then none else some n
      | .unstamped => none
    let m1 : Mount := { m with headers := m.headers ++ [r] }
    let u := s.engineReadDone (.header m.headers.length)
    exec (.headerReadCompletion lost) s =
      .next (if m.headers.length + 1 < 34 then
          ({ u with op := .mount m1 } : State).claimRead (.header (m.headers.length + 1))
        else
          match (List.range 34).find? (fun g => (m1.headers.getD g none).isSome) with
          | some g =>
            ({ u.setAllErases m1.headers with op := .mount { m1 with phase := .slotScan, scan := ⟨g, 0⟩ } } : State).claimRead
              (.slot ⟨g, 0⟩)
          | none => (u.setAllErases m1.headers).resolve m1).settle) ∧
  ∀ (s : State) (m : Mount) (lost : Bool), s.op = .mount m → m.phase = .slotScan → s.engineReads (.slot m.scan) = true →
    let u := s.engineReadDone (.slot m.scan)
    let m1 : Mount :=
      if m.scan.seg < 32 then
        { m with slots := tablePut .blank (slotKey m.scan) (recordOfRead (s.readSlotResult m.scan lost)) m.slots }
      else { m with cfgSlots := tablePut .blank (cfgKey m.scan) (readCfgCells (s.store.cfgSlot m.scan) lost) m.cfgSlots }
    exec (.slotScanReadCompletion lost) s =
      .next (if m.scan.slot + 1 < (if m.scan.seg < 32 then 64 else 16) then
          ({ u with op := .mount { m1 with scan := ⟨m.scan.seg, m.scan.slot + 1⟩ } } : State).claimRead
            (.slot ⟨m.scan.seg, m.scan.slot + 1⟩)
        else
          match (List.range 34).find? (fun g => decide (m.scan.seg + 1 ≤ g) && (m.headers.getD g none).isSome) with
          | some g => ({ u with op := .mount { m1 with scan := ⟨g, 0⟩ } } : State).claimRead (.slot ⟨g, 0⟩)
          | none => u.resolve m1).settle

/-- RESOLVE (R28, R45, R46, R187, R188, R189): a channel's position is the slot of its candidate of the highest issue number when
that is a ROUTE, and none when it is a WITHDRAW or there is no candidate, the candidates being the recorded entries of the channel
that are sealed and not RETIRED (a LIVE seal of count n at slot s seals the slots s-n to s-1 of its segment that carry its issue
number); the issue counter is one above the largest recorded issue number, or 1 when there is none. -/
def Obligations.ResolveGivesAChannelItsNewestSealedRoute : Prop :=
  (∀ (slots : Table Slot) (k n : Nat), tableWf .blank slots = true →
    (sealedBy slots k n = true ↔ ∃ k' c : Nat, tableGet .blank slots k' = .written ⟨.live, n, .seal c⟩ ∧
      k' / 64 = k / 64 ∧ k < k' ∧ k' ≤ k + c)) ∧
  ∀ (s : State) (m : Mount), tableWf .blank m.slots = true → tableWf .blank m.cfgSlots = true →
    let candidate := fun (k n : Nat) (e : Entry) =>
      ∃ st : RecState, tableGet .blank m.slots k = .written ⟨st, n, .entry e⟩ ∧ st ≠ .retired ∧ sealedBy m.slots k n = true
    (∀ (ch : Nat) (a : SlotAddr), (s.resolve m).position ch = some a →
      ∃ (n : Nat) (f : RouteFields), candidate (slotKey a) n ⟨ch, .route f⟩ ∧
        ∀ (k n' : Nat) (e : Entry), candidate k n' e → e.channel = ch → n' ≤ n) ∧
    (∀ ch : Nat, (s.resolve m).position ch = none → ∀ (k n : Nat) (f : RouteFields), candidate k n ⟨ch, .route f⟩ →
      ∃ k' n' : Nat, candidate k' n' ⟨ch, .withdraw⟩ ∧ n ≤ n') ∧
    ∃ c : Nat, (s.resolve m).issue = some (c + 1) ∧
      (∀ (k : Nat) (r : SlotRecord), tableGet .blank m.slots k = .written r → r.issue ≤ c) ∧
      (∀ (k n : Nat) (v : ConfigRecord), tableGet .blank m.cfgSlots k = .live n v → n ≤ c) ∧
      (c = 0 ∨ (∃ (k : Nat) (r : SlotRecord), tableGet .blank m.slots k = .written r ∧ r.issue = c) ∨
        ∃ (k : Nat) (v : ConfigRecord), tableGet .blank m.cfgSlots k = .live c v)

/-- RESOLVE (R187, R188, R190, R191, R192, Tables 10-3, 10-4), from what the scans recorded: an unstamped segment is TORN; the fill
pointer of a stamped one is the slot after its last slot not recorded BLANK; it is CLEAN when there is none, a route segment OPEN
when it holds the LIVE seal of the highest issue number and is not full, a configuration segment when it holds the record in force,
and FILLED else. The record of the highest issue number is in force, or the defaults. The repair list holds the voids of Table 10-3
in slot order, those of the configuration slots, and the repairs of each channel that has candidates, in channel order; REPAIR
begins with its first program at the same event. Nothing else changes. -/
def Obligations.ResolveSetsSegmentsConfigurationAndRepairs : Prop :=
  ∀ (s : State) (m : Mount), s.canonical = true → tableWf .blank m.slots = true → tableWf .blank m.cfgSlots = true →
    let t := s.resolve m
    let slot := fun k : Nat => tableGet Slot.blank m.slots k
    let cfg := fun k : Nat => tableGet CfgSlot.blank m.cfgSlots k
    let liveSeal := fun k n : Nat => ∃ c : Nat, slot k = .written ⟨.live, n, .seal c⟩
    let stamped := fun g : Nat => ∃ e : Nat, m.headers[g]? = some (some e)
    let filledTo := fun (blank : Nat → Prop) (size fill : Nat) =>
      fill ≤ size ∧ (∀ x : Nat, fill ≤ x → x < size → blank x) ∧ (fill = 0 ∨ ¬ blank (fill - 1))
    let cands := m.slots.filterMap (candidateOf m.slots)
    let voids := m.slots.filterMap (voidRepairOf m.slots)
    let cfgVoids := m.cfgSlots.filterMap cfgVoidRepairOf
    let repairs := voids ++ cfgVoids ++ ((channelsOf cands).map (repairsOf cands)).flatten
    (∀ g : Nat, g < 32 →
      (t.seg g).erases = (s.seg g).erases ∧
      (¬ stamped g → (t.seg g).state = some .torn ∧ (t.seg g).fill = some 0) ∧
      (stamped g → ∃ fill : Nat, (t.seg g).fill = some fill ∧ filledTo (fun x => slot (64 * g + x) = .blank) 64 fill ∧
        ((t.seg g).state = some .clean ↔ fill = 0) ∧
        ((t.seg g).state = some .clean ∨ (t.seg g).state = some .opened ∨ (t.seg g).state = some .filled) ∧
        ((t.seg g).state = some .opened →
          fill < 64 ∧ ∃ x n : Nat, x < 64 ∧ liveSeal (64 * g + x) n ∧ ∀ k n' : Nat, liveSeal k n' → n' ≤ n) ∧
        (fill < 64 → ∀ x n : Nat, x < 64 → liveSeal (64 * g + x) n →
          (∀ k n' : Nat, k ≠ 64 * g + x → liveSeal k n' → n' < n) → (t.seg g).state = some .opened))) ∧
    (∀ i : Nat, i < 2 →
      (t.seg (32 + i)).erases = (s.seg (32 + i)).erases ∧
      (¬ stamped (32 + i) → (t.seg (32 + i)).state = some .torn ∧ (t.seg (32 + i)).fill = some 0) ∧
      (stamped (32 + i) → ∃ fill : Nat, (t.seg (32 + i)).fill = some fill ∧
        filledTo (fun x => cfg (16 * i + x) = .blank) 16 fill ∧
        (t.seg (32 + i)).state = some (
          if (t.config.source.map (fun src => src.addr.seg)) = some (32 + i) then .opened
          else if fill = 0 then .clean
          else .filled))) ∧
    ((∀ (k n : Nat) (v : ConfigRecord), cfg k ≠ .live n v) → t.config = InForce.reset) ∧
    (∀ (k n : Nat) (v : ConfigRecord), cfg k = .live n v →
      ∃ (k' n' : Nat) (v' : ConfigRecord), cfg k' = .live n' v' ∧ n ≤ n' ∧
        t.config = ⟨v', some ⟨n', ⟨32 + k' / 16, k' % 16⟩⟩⟩) ∧
    (∃ u : State, t = u.nextRepair { m with phase := .repair, cands := cands, repairs := repairs } ∧
      u = { s with segs := u.segs, index := t.index, issue := t.issue, config := t.config }) ∧
    (∀ c : Candidate, c ∈ cands ↔ ∃ (k n : Nat) (st : RecState) (e : Entry), slot k = .written ⟨st, n, .entry e⟩ ∧ st ≠ .retired ∧
      sealedBy m.slots k n = true ∧ c = ⟨e.channel, ⟨k / 64, k % 64⟩, n, e.isRoute, decide (st = .live)⟩) ∧
    (∀ r : Repair, r ∈ voids ↔ ∃ k : Nat,
      (slot k = .indeterminate ∧ r = ⟨⟨k / 64, k % 64⟩, .void, none, none, none⟩) ∨
      ∃ (n : Nat) (st : RecState) (e : Entry), slot k = .written ⟨st, n, .entry e⟩ ∧ st ≠ .retired ∧
        sealedBy m.slots k n = false ∧ r = ⟨⟨k / 64, k % 64⟩, .void, none, some e.channel, some n⟩) ∧
    (voids.map (fun r => 64 * r.addr.seg + r.addr.slot)).Pairwise (· < ·) ∧
    (∀ r : Repair, r ∈ cfgVoids ↔ ∃ k : Nat, cfg k = .indeterminate ∧ r = ⟨⟨32 + k / 16, k % 16⟩, .void, none, none, none⟩) ∧
    (cfgVoids.map (fun r => 16 * (r.addr.seg - 32) + r.addr.slot)).Pairwise (· < ·) ∧
    (∀ ch : Nat, ch ∈ channelsOf cands ↔ ∃ c ∈ cands, c.channel = ch) ∧
    (channelsOf cands).Pairwise (· < ·)

/-- REPAIR_PROGRAM_COMPLETION (R192, R193, R194): a pass is followed by the next program of the list, or past the last by the entry
into the start mode, with the in-use counts set and the engine idle; a failed retire or promotion is recorded and voided next, a
failed promotion also resolves its channel again among the remaining candidates; a failed VOID makes an OPEN or FILLED segment
FAULTED and is followed by the next program. The winner of a channel is its candidate of the highest issue number, its losers are
listed in increasing order of issue number, and its repairs and its position are those of Table 10-4 (R188). -/
def Obligations.RepairsEndInTheStartMode : Prop :=
  (∀ (s : State) (p : Program) (m : Mount) (r : Repair) (rest : List Repair), s.program = some p → p.role = .repair →
    s.op = .mount m → m.repairs = r :: rest →
    exec (.repairProgramCompletion true) s = .next (((s.endProgram p true).nextRepair (m.repaired r rest)).engineNext).settle ∧
    (let u := (s.endProgram p false).addFault
        ⟨.mountRepair, some r.addr.seg, some r.addr.slot, r.recChannel, r.recIssue, none⟩
     let m1 := m.unrecorded r
     exec (.repairProgramCompletion false) s =
      .next ((match r.act with
        | .void => (u.faultSegmentAtMount r.addr.seg).nextRepair { m1 with repairs := rest }
        | .retire => u.nextRepair { m1 with repairs := { r with act := .void } :: rest }
        | .promote =>
          let cands := m1.cands.filter (fun c : Candidate => c.addr ≠ r.addr)
          (u.setPosition (r.group.getD 0) (positionOf cands (r.group.getD 0))).nextRepair
            { m1 with
              cands := cands
              repairs := { r with act := .void } :: repairsOf cands (r.group.getD 0) ++ rest.filter (fun x : Repair => x.group ≠ r.group) }).engineNext).settle)) ∧
  (∀ (m : Mount) (r : Repair) (rest : List Repair), tableWf .blank m.slots = true → tableWf .blank m.cfgSlots = true →
    (r.addr.seg < 32 →
      m.repaired r rest = { m with repairs := rest, slots := (m.repaired r rest).slots } ∧
      m.unrecorded r = { m with slots := (m.unrecorded r).slots } ∧
      ∀ k : Nat,
        tableGet .blank (m.repaired r rest).slots k =
          (if k = 64 * r.addr.seg + r.addr.slot then
            (match r.act with | .void => SlotWrite.void | .promote => SlotWrite.promote | .retire => SlotWrite.retire).passed
              (tableGet .blank m.slots k)
          else tableGet .blank m.slots k) ∧
        tableGet .blank (m.unrecorded r).slots k =
          (if k = 64 * r.addr.seg + r.addr.slot then .indeterminate else tableGet .blank m.slots k)) ∧
    (32 ≤ r.addr.seg →
      m.repaired r rest = { m with repairs := rest, cfgSlots := (m.repaired r rest).cfgSlots } ∧
      m.unrecorded r = { m with cfgSlots := (m.unrecorded r).cfgSlots } ∧
      ∀ k : Nat,
        tableGet .blank (m.repaired r rest).cfgSlots k =
          (if k = 16 * (r.addr.seg - 32) + r.addr.slot then .void else tableGet .blank m.cfgSlots k) ∧
        tableGet .blank (m.unrecorded r).cfgSlots k =
          (if k = 16 * (r.addr.seg - 32) + r.addr.slot then .indeterminate else tableGet .blank m.cfgSlots k))) ∧
  (∀ (s : State) (g : Nat), s.canonical = true →
    (∀ x : Nat, x ≠ g → (s.faultSegmentAtMount g).seg x = s.seg x) ∧
    (s.faultSegmentAtMount g).seg g =
      (if g < 32 ∧ ((s.seg g).state = some .opened ∨ (s.seg g).state = some .filled) then { s.seg g with state := some .faulted }
      else s.seg g) ∧
    s.faultSegmentAtMount g = { s with segs := (s.faultSegmentAtMount g).segs }) ∧
  (∀ (cands : List Candidate) (ch : Nat),
    (winnerOf cands ch = none ↔ ∀ c ∈ cands, c.channel ≠ ch) ∧
    (∀ w : Candidate, winnerOf cands ch = some w →
      w ∈ cands ∧ w.channel = ch ∧ (∀ c ∈ cands, c.channel = ch → c.issue ≤ w.issue) ∧
      (losersOf cands ch w).Perm (cands.filter (fun c => decide (c.channel = ch ∧ c.addr ≠ w.addr))) ∧
      (losersOf cands ch w).Pairwise (fun x y => x.issue ≤ y.issue)) ∧
    positionOf cands ch =
      (match winnerOf cands ch with
       | some w => if w.isRoute = true then some w.addr else none
       | none => none) ∧
    repairsOf cands ch =
      (let repair := fun (c : Candidate) (act : RepairAct) => (⟨c.addr, act, some c.channel, some c.channel, some c.issue⟩ : Repair)
       match winnerOf cands ch with
       | none => []
       | some w =>
         let retires := (losersOf cands ch w).map (fun c => repair c .retire)
         match w.isRoute, w.isLive with
         | true, true => retires
         | true, false => repair w .promote :: retires
         | false, _ => retires ++ [repair w .retire])) ∧
  (∀ (s : State) (m : Mount) (r : Repair) (rest : List Repair), m.repairs = r :: rest →
    s.nextRepair m =
      ({ s with op := .mount m } : State).claimProgram
        ⟨.repair, if r.addr.seg < 32 then
            .slot r.addr (match r.act with | .void => .void | .promote => .promote | .retire => .retire)
          else .cfgVoid r.addr⟩) ∧
  ∀ (s : State) (m : Mount), s.canonical = true → m.repairs = [] →
    (s.nextRepair m).op = .idle ∧
    (s.nextRepair m).opState = (match s.config.values.startMode with | .run => .running | .bypass => .bypass) ∧
    (∀ g, g < 32 → (s.nextRepair m).seg g =
      { s.seg g with inUse := some (m.slots.countP (fun kv => decide (kv.1 / 64 = g) && kv.2.inUse)) }) ∧
    (∀ g, 32 ≤ g → (s.nextRepair m).seg g = s.seg g) ∧
    s.nextRepair m = { s with op := .idle, opState := (s.nextRepair m).opState, segs := (s.nextRepair m).segs }
end

