-- ==== Sys2Proof/Laws/State.lean ====
section
/-! SUPPORT. One lemma per field per named update of State, true by rfl. -/

namespace Sys2Proof.Machine

/-! ## setBank -/

@[simp] theorem State.resetAsserted_setBank (s : State) (b : Bank) (u : BankUnit) : (s.setBank b u).resetAsserted = s.resetAsserted := rfl
@[simp] theorem State.guardRelease_setBank (s : State) (b : Bank) (u : BankUnit) : (s.setBank b u).guardRelease = s.guardRelease := rfl
@[simp] theorem State.opState_setBank (s : State) (b : Bank) (u : BankUnit) : (s.setBank b u).opState = s.opState := rfl
@[simp] theorem State.store_setBank (s : State) (b : Bank) (u : BankUnit) : (s.setBank b u).store = s.store := rfl
@[simp] theorem State.program_setBank (s : State) (b : Bank) (u : BankUnit) : (s.setBank b u).program = s.program := rfl
@[simp] theorem State.banks_setBank (s : State) (b : Bank) (u : BankUnit) : (s.setBank b u).banks = s.banks.set b u := rfl
@[simp] theorem State.cfgBank_setBank (s : State) (b : Bank) (u : BankUnit) : (s.setBank b u).cfgBank = s.cfgBank := rfl
@[simp] theorem State.index_setBank (s : State) (b : Bank) (u : BankUnit) : (s.setBank b u).index = s.index := rfl
@[simp] theorem State.staging_setBank (s : State) (b : Bank) (u : BankUnit) : (s.setBank b u).staging = s.staging := rfl
@[simp] theorem State.queue_setBank (s : State) (b : Bank) (u : BankUnit) : (s.setBank b u).queue = s.queue := rfl
@[simp] theorem State.op_setBank (s : State) (b : Bank) (u : BankUnit) : (s.setBank b u).op = s.op := rfl
@[simp] theorem State.suspended_setBank (s : State) (b : Bank) (u : BankUnit) : (s.setBank b u).suspended = s.suspended := rfl
@[simp] theorem State.issue_setBank (s : State) (b : Bank) (u : BankUnit) : (s.setBank b u).issue = s.issue := rfl
@[simp] theorem State.faults_setBank (s : State) (b : Bank) (u : BankUnit) : (s.setBank b u).faults = s.faults := rfl
@[simp] theorem State.overflow_setBank (s : State) (b : Bank) (u : BankUnit) : (s.setBank b u).overflow = s.overflow := rfl
@[simp] theorem State.segs_setBank (s : State) (b : Bank) (u : BankUnit) : (s.setBank b u).segs = s.segs := rfl
@[simp] theorem State.ingress_setBank (s : State) (b : Bank) (u : BankUnit) : (s.setBank b u).ingress = s.ingress := rfl
@[simp] theorem State.stages_setBank (s : State) (b : Bank) (u : BankUnit) : (s.setBank b u).stages = s.stages := rfl
@[simp] theorem State.counters_setBank (s : State) (b : Bank) (u : BankUnit) : (s.setBank b u).counters = s.counters := rfl
@[simp] theorem State.traffic_setBank (s : State) (b : Bank) (u : BankUnit) : (s.setBank b u).traffic = s.traffic := rfl
@[simp] theorem State.replies_setBank (s : State) (b : Bank) (u : BankUnit) : (s.setBank b u).replies = s.replies := rfl
@[simp] theorem State.lineTx_setBank (s : State) (b : Bank) (u : BankUnit) : (s.setBank b u).lineTx = s.lineTx := rfl
@[simp] theorem State.delivery_setBank (s : State) (b : Bank) (u : BankUnit) : (s.setBank b u).delivery = s.delivery := rfl
@[simp] theorem State.tapTx_setBank (s : State) (b : Bank) (u : BankUnit) : (s.setBank b u).tapTx = s.tapTx := rfl
@[simp] theorem State.memory_setBank (s : State) (b : Bank) (u : BankUnit) : (s.setBank b u).memory = s.memory := rfl
@[simp] theorem State.config_setBank (s : State) (b : Bank) (u : BankUnit) : (s.setBank b u).config = s.config := rfl
@[simp] theorem State.pending_setBank (s : State) (b : Bank) (u : BankUnit) : (s.setBank b u).pending = s.pending := rfl

/-! ## setStage -/

@[simp] theorem State.resetAsserted_setStage (s : State) (p : Port) (g : Stage) : (s.setStage p g).resetAsserted = s.resetAsserted := rfl
@[simp] theorem State.guardRelease_setStage (s : State) (p : Port) (g : Stage) : (s.setStage p g).guardRelease = s.guardRelease := rfl
@[simp] theorem State.opState_setStage (s : State) (p : Port) (g : Stage) : (s.setStage p g).opState = s.opState := rfl
@[simp] theorem State.store_setStage (s : State) (p : Port) (g : Stage) : (s.setStage p g).store = s.store := rfl
@[simp] theorem State.program_setStage (s : State) (p : Port) (g : Stage) : (s.setStage p g).program = s.program := rfl
@[simp] theorem State.banks_setStage (s : State) (p : Port) (g : Stage) : (s.setStage p g).banks = s.banks := rfl
@[simp] theorem State.cfgBank_setStage (s : State) (p : Port) (g : Stage) : (s.setStage p g).cfgBank = s.cfgBank := rfl
@[simp] theorem State.index_setStage (s : State) (p : Port) (g : Stage) : (s.setStage p g).index = s.index := rfl
@[simp] theorem State.staging_setStage (s : State) (p : Port) (g : Stage) : (s.setStage p g).staging = s.staging := rfl
@[simp] theorem State.queue_setStage (s : State) (p : Port) (g : Stage) : (s.setStage p g).queue = s.queue := rfl
@[simp] theorem State.op_setStage (s : State) (p : Port) (g : Stage) : (s.setStage p g).op = s.op := rfl
@[simp] theorem State.suspended_setStage (s : State) (p : Port) (g : Stage) : (s.setStage p g).suspended = s.suspended := rfl
@[simp] theorem State.issue_setStage (s : State) (p : Port) (g : Stage) : (s.setStage p g).issue = s.issue := rfl
@[simp] theorem State.faults_setStage (s : State) (p : Port) (g : Stage) : (s.setStage p g).faults = s.faults := rfl
@[simp] theorem State.overflow_setStage (s : State) (p : Port) (g : Stage) : (s.setStage p g).overflow = s.overflow := rfl
@[simp] theorem State.segs_setStage (s : State) (p : Port) (g : Stage) : (s.setStage p g).segs = s.segs := rfl
@[simp] theorem State.ingress_setStage (s : State) (p : Port) (g : Stage) : (s.setStage p g).ingress = s.ingress := rfl
@[simp] theorem State.stages_setStage (s : State) (p : Port) (g : Stage) : (s.setStage p g).stages = s.stages.set p g := rfl
@[simp] theorem State.counters_setStage (s : State) (p : Port) (g : Stage) : (s.setStage p g).counters = s.counters := rfl
@[simp] theorem State.traffic_setStage (s : State) (p : Port) (g : Stage) : (s.setStage p g).traffic = s.traffic := rfl
@[simp] theorem State.replies_setStage (s : State) (p : Port) (g : Stage) : (s.setStage p g).replies = s.replies := rfl
@[simp] theorem State.lineTx_setStage (s : State) (p : Port) (g : Stage) : (s.setStage p g).lineTx = s.lineTx := rfl
@[simp] theorem State.delivery_setStage (s : State) (p : Port) (g : Stage) : (s.setStage p g).delivery = s.delivery := rfl
@[simp] theorem State.tapTx_setStage (s : State) (p : Port) (g : Stage) : (s.setStage p g).tapTx = s.tapTx := rfl
@[simp] theorem State.memory_setStage (s : State) (p : Port) (g : Stage) : (s.setStage p g).memory = s.memory := rfl
@[simp] theorem State.config_setStage (s : State) (p : Port) (g : Stage) : (s.setStage p g).config = s.config := rfl
@[simp] theorem State.pending_setStage (s : State) (p : Port) (g : Stage) : (s.setStage p g).pending = s.pending := rfl

/-! ## setSeg -/

@[simp] theorem State.resetAsserted_setSeg (s : State) (g : Nat) (v : SegVol) : (s.setSeg g v).resetAsserted = s.resetAsserted := rfl
@[simp] theorem State.guardRelease_setSeg (s : State) (g : Nat) (v : SegVol) : (s.setSeg g v).guardRelease = s.guardRelease := rfl
@[simp] theorem State.opState_setSeg (s : State) (g : Nat) (v : SegVol) : (s.setSeg g v).opState = s.opState := rfl
@[simp] theorem State.store_setSeg (s : State) (g : Nat) (v : SegVol) : (s.setSeg g v).store = s.store := rfl
@[simp] theorem State.program_setSeg (s : State) (g : Nat) (v : SegVol) : (s.setSeg g v).program = s.program := rfl
@[simp] theorem State.banks_setSeg (s : State) (g : Nat) (v : SegVol) : (s.setSeg g v).banks = s.banks := rfl
@[simp] theorem State.cfgBank_setSeg (s : State) (g : Nat) (v : SegVol) : (s.setSeg g v).cfgBank = s.cfgBank := rfl
@[simp] theorem State.index_setSeg (s : State) (g : Nat) (v : SegVol) : (s.setSeg g v).index = s.index := rfl
@[simp] theorem State.staging_setSeg (s : State) (g : Nat) (v : SegVol) : (s.setSeg g v).staging = s.staging := rfl
@[simp] theorem State.queue_setSeg (s : State) (g : Nat) (v : SegVol) : (s.setSeg g v).queue = s.queue := rfl
@[simp] theorem State.op_setSeg (s : State) (g : Nat) (v : SegVol) : (s.setSeg g v).op = s.op := rfl
@[simp] theorem State.suspended_setSeg (s : State) (g : Nat) (v : SegVol) : (s.setSeg g v).suspended = s.suspended := rfl
@[simp] theorem State.issue_setSeg (s : State) (g : Nat) (v : SegVol) : (s.setSeg g v).issue = s.issue := rfl
@[simp] theorem State.faults_setSeg (s : State) (g : Nat) (v : SegVol) : (s.setSeg g v).faults = s.faults := rfl
@[simp] theorem State.overflow_setSeg (s : State) (g : Nat) (v : SegVol) : (s.setSeg g v).overflow = s.overflow := rfl
@[simp] theorem State.segs_setSeg (s : State) (g : Nat) (v : SegVol) : (s.setSeg g v).segs = tablePut SegVol.noValue g v s.segs := rfl
@[simp] theorem State.ingress_setSeg (s : State) (g : Nat) (v : SegVol) : (s.setSeg g v).ingress = s.ingress := rfl
@[simp] theorem State.stages_setSeg (s : State) (g : Nat) (v : SegVol) : (s.setSeg g v).stages = s.stages := rfl
@[simp] theorem State.counters_setSeg (s : State) (g : Nat) (v : SegVol) : (s.setSeg g v).counters = s.counters := rfl
@[simp] theorem State.traffic_setSeg (s : State) (g : Nat) (v : SegVol) : (s.setSeg g v).traffic = s.traffic := rfl
@[simp] theorem State.replies_setSeg (s : State) (g : Nat) (v : SegVol) : (s.setSeg g v).replies = s.replies := rfl
@[simp] theorem State.lineTx_setSeg (s : State) (g : Nat) (v : SegVol) : (s.setSeg g v).lineTx = s.lineTx := rfl
@[simp] theorem State.delivery_setSeg (s : State) (g : Nat) (v : SegVol) : (s.setSeg g v).delivery = s.delivery := rfl
@[simp] theorem State.tapTx_setSeg (s : State) (g : Nat) (v : SegVol) : (s.setSeg g v).tapTx = s.tapTx := rfl
@[simp] theorem State.memory_setSeg (s : State) (g : Nat) (v : SegVol) : (s.setSeg g v).memory = s.memory := rfl
@[simp] theorem State.config_setSeg (s : State) (g : Nat) (v : SegVol) : (s.setSeg g v).config = s.config := rfl
@[simp] theorem State.pending_setSeg (s : State) (g : Nat) (v : SegVol) : (s.setSeg g v).pending = s.pending := rfl

/-! ## setPosition -/

@[simp] theorem State.resetAsserted_setPosition (s : State) (c : Nat) (v : Option SlotAddr) : (s.setPosition c v).resetAsserted = s.resetAsserted := rfl
@[simp] theorem State.guardRelease_setPosition (s : State) (c : Nat) (v : Option SlotAddr) : (s.setPosition c v).guardRelease = s.guardRelease := rfl
@[simp] theorem State.opState_setPosition (s : State) (c : Nat) (v : Option SlotAddr) : (s.setPosition c v).opState = s.opState := rfl
@[simp] theorem State.store_setPosition (s : State) (c : Nat) (v : Option SlotAddr) : (s.setPosition c v).store = s.store := rfl
@[simp] theorem State.program_setPosition (s : State) (c : Nat) (v : Option SlotAddr) : (s.setPosition c v).program = s.program := rfl
@[simp] theorem State.banks_setPosition (s : State) (c : Nat) (v : Option SlotAddr) : (s.setPosition c v).banks = s.banks := rfl
@[simp] theorem State.cfgBank_setPosition (s : State) (c : Nat) (v : Option SlotAddr) : (s.setPosition c v).cfgBank = s.cfgBank := rfl
@[simp] theorem State.index_setPosition (s : State) (c : Nat) (v : Option SlotAddr) : (s.setPosition c v).index = tablePut none c v s.index := rfl
@[simp] theorem State.staging_setPosition (s : State) (c : Nat) (v : Option SlotAddr) : (s.setPosition c v).staging = s.staging := rfl
@[simp] theorem State.queue_setPosition (s : State) (c : Nat) (v : Option SlotAddr) : (s.setPosition c v).queue = s.queue := rfl
@[simp] theorem State.op_setPosition (s : State) (c : Nat) (v : Option SlotAddr) : (s.setPosition c v).op = s.op := rfl
@[simp] theorem State.suspended_setPosition (s : State) (c : Nat) (v : Option SlotAddr) : (s.setPosition c v).suspended = s.suspended := rfl
@[simp] theorem State.issue_setPosition (s : State) (c : Nat) (v : Option SlotAddr) : (s.setPosition c v).issue = s.issue := rfl
@[simp] theorem State.faults_setPosition (s : State) (c : Nat) (v : Option SlotAddr) : (s.setPosition c v).faults = s.faults := rfl
@[simp] theorem State.overflow_setPosition (s : State) (c : Nat) (v : Option SlotAddr) : (s.setPosition c v).overflow = s.overflow := rfl
@[simp] theorem State.segs_setPosition (s : State) (c : Nat) (v : Option SlotAddr) : (s.setPosition c v).segs = s.segs := rfl
@[simp] theorem State.ingress_setPosition (s : State) (c : Nat) (v : Option SlotAddr) : (s.setPosition c v).ingress = s.ingress := rfl
@[simp] theorem State.stages_setPosition (s : State) (c : Nat) (v : Option SlotAddr) : (s.setPosition c v).stages = s.stages := rfl
@[simp] theorem State.counters_setPosition (s : State) (c : Nat) (v : Option SlotAddr) : (s.setPosition c v).counters = s.counters := rfl
@[simp] theorem State.traffic_setPosition (s : State) (c : Nat) (v : Option SlotAddr) : (s.setPosition c v).traffic = s.traffic := rfl
@[simp] theorem State.replies_setPosition (s : State) (c : Nat) (v : Option SlotAddr) : (s.setPosition c v).replies = s.replies := rfl
@[simp] theorem State.lineTx_setPosition (s : State) (c : Nat) (v : Option SlotAddr) : (s.setPosition c v).lineTx = s.lineTx := rfl
@[simp] theorem State.delivery_setPosition (s : State) (c : Nat) (v : Option SlotAddr) : (s.setPosition c v).delivery = s.delivery := rfl
@[simp] theorem State.tapTx_setPosition (s : State) (c : Nat) (v : Option SlotAddr) : (s.setPosition c v).tapTx = s.tapTx := rfl
@[simp] theorem State.memory_setPosition (s : State) (c : Nat) (v : Option SlotAddr) : (s.setPosition c v).memory = s.memory := rfl
@[simp] theorem State.config_setPosition (s : State) (c : Nat) (v : Option SlotAddr) : (s.setPosition c v).config = s.config := rfl
@[simp] theorem State.pending_setPosition (s : State) (c : Nat) (v : Option SlotAddr) : (s.setPosition c v).pending = s.pending := rfl

/-! ## count -/

@[simp] theorem State.resetAsserted_count (s : State) (p : Port) (c : Counter) : (s.count p c).resetAsserted = s.resetAsserted := rfl
@[simp] theorem State.guardRelease_count (s : State) (p : Port) (c : Counter) : (s.count p c).guardRelease = s.guardRelease := rfl
@[simp] theorem State.opState_count (s : State) (p : Port) (c : Counter) : (s.count p c).opState = s.opState := rfl
@[simp] theorem State.store_count (s : State) (p : Port) (c : Counter) : (s.count p c).store = s.store := rfl
@[simp] theorem State.program_count (s : State) (p : Port) (c : Counter) : (s.count p c).program = s.program := rfl
@[simp] theorem State.banks_count (s : State) (p : Port) (c : Counter) : (s.count p c).banks = s.banks := rfl
@[simp] theorem State.cfgBank_count (s : State) (p : Port) (c : Counter) : (s.count p c).cfgBank = s.cfgBank := rfl
@[simp] theorem State.index_count (s : State) (p : Port) (c : Counter) : (s.count p c).index = s.index := rfl
@[simp] theorem State.staging_count (s : State) (p : Port) (c : Counter) : (s.count p c).staging = s.staging := rfl
@[simp] theorem State.queue_count (s : State) (p : Port) (c : Counter) : (s.count p c).queue = s.queue := rfl
@[simp] theorem State.op_count (s : State) (p : Port) (c : Counter) : (s.count p c).op = s.op := rfl
@[simp] theorem State.suspended_count (s : State) (p : Port) (c : Counter) : (s.count p c).suspended = s.suspended := rfl
@[simp] theorem State.issue_count (s : State) (p : Port) (c : Counter) : (s.count p c).issue = s.issue := rfl
@[simp] theorem State.faults_count (s : State) (p : Port) (c : Counter) : (s.count p c).faults = s.faults := rfl
@[simp] theorem State.overflow_count (s : State) (p : Port) (c : Counter) : (s.count p c).overflow = s.overflow := rfl
@[simp] theorem State.segs_count (s : State) (p : Port) (c : Counter) : (s.count p c).segs = s.segs := rfl
@[simp] theorem State.ingress_count (s : State) (p : Port) (c : Counter) : (s.count p c).ingress = s.ingress := rfl
@[simp] theorem State.stages_count (s : State) (p : Port) (c : Counter) : (s.count p c).stages = s.stages := rfl
@[simp] theorem State.counters_count (s : State) (p : Port) (c : Counter) : (s.count p c).counters = s.counters.set p ((s.counters.get p).bump c) := rfl
@[simp] theorem State.traffic_count (s : State) (p : Port) (c : Counter) : (s.count p c).traffic = s.traffic := rfl
@[simp] theorem State.replies_count (s : State) (p : Port) (c : Counter) : (s.count p c).replies = s.replies := rfl
@[simp] theorem State.lineTx_count (s : State) (p : Port) (c : Counter) : (s.count p c).lineTx = s.lineTx := rfl
@[simp] theorem State.delivery_count (s : State) (p : Port) (c : Counter) : (s.count p c).delivery = s.delivery := rfl
@[simp] theorem State.tapTx_count (s : State) (p : Port) (c : Counter) : (s.count p c).tapTx = s.tapTx := rfl
@[simp] theorem State.memory_count (s : State) (p : Port) (c : Counter) : (s.count p c).memory = s.memory := rfl
@[simp] theorem State.config_count (s : State) (p : Port) (c : Counter) : (s.count p c).config = s.config := rfl
@[simp] theorem State.pending_count (s : State) (p : Port) (c : Counter) : (s.count p c).pending = s.pending := rfl

/-! ## remember -/

@[simp] theorem State.resetAsserted_remember (s : State) (o : Origin) (k st : Byte) (r : List Byte) : (s.remember o k st r).resetAsserted = s.resetAsserted := rfl
@[simp] theorem State.guardRelease_remember (s : State) (o : Origin) (k st : Byte) (r : List Byte) : (s.remember o k st r).guardRelease = s.guardRelease := rfl
@[simp] theorem State.opState_remember (s : State) (o : Origin) (k st : Byte) (r : List Byte) : (s.remember o k st r).opState = s.opState := rfl
@[simp] theorem State.store_remember (s : State) (o : Origin) (k st : Byte) (r : List Byte) : (s.remember o k st r).store = s.store := rfl
@[simp] theorem State.program_remember (s : State) (o : Origin) (k st : Byte) (r : List Byte) : (s.remember o k st r).program = s.program := rfl
@[simp] theorem State.banks_remember (s : State) (o : Origin) (k st : Byte) (r : List Byte) : (s.remember o k st r).banks = s.banks := rfl
@[simp] theorem State.cfgBank_remember (s : State) (o : Origin) (k st : Byte) (r : List Byte) : (s.remember o k st r).cfgBank = s.cfgBank := rfl
@[simp] theorem State.index_remember (s : State) (o : Origin) (k st : Byte) (r : List Byte) : (s.remember o k st r).index = s.index := rfl
@[simp] theorem State.staging_remember (s : State) (o : Origin) (k st : Byte) (r : List Byte) : (s.remember o k st r).staging = s.staging := rfl
@[simp] theorem State.queue_remember (s : State) (o : Origin) (k st : Byte) (r : List Byte) : (s.remember o k st r).queue = s.queue := rfl
@[simp] theorem State.op_remember (s : State) (o : Origin) (k st : Byte) (r : List Byte) : (s.remember o k st r).op = s.op := rfl
@[simp] theorem State.suspended_remember (s : State) (o : Origin) (k st : Byte) (r : List Byte) : (s.remember o k st r).suspended = s.suspended := rfl
@[simp] theorem State.issue_remember (s : State) (o : Origin) (k st : Byte) (r : List Byte) : (s.remember o k st r).issue = s.issue := rfl
@[simp] theorem State.faults_remember (s : State) (o : Origin) (k st : Byte) (r : List Byte) : (s.remember o k st r).faults = s.faults := rfl
@[simp] theorem State.overflow_remember (s : State) (o : Origin) (k st : Byte) (r : List Byte) : (s.remember o k st r).overflow = s.overflow := rfl
@[simp] theorem State.segs_remember (s : State) (o : Origin) (k st : Byte) (r : List Byte) : (s.remember o k st r).segs = s.segs := rfl
@[simp] theorem State.ingress_remember (s : State) (o : Origin) (k st : Byte) (r : List Byte) : (s.remember o k st r).ingress = s.ingress := rfl
@[simp] theorem State.stages_remember (s : State) (o : Origin) (k st : Byte) (r : List Byte) : (s.remember o k st r).stages = s.stages := rfl
@[simp] theorem State.counters_remember (s : State) (o : Origin) (k st : Byte) (r : List Byte) : (s.remember o k st r).counters = s.counters := rfl
@[simp] theorem State.traffic_remember (s : State) (o : Origin) (k st : Byte) (r : List Byte) : (s.remember o k st r).traffic = s.traffic := rfl
@[simp] theorem State.replies_remember (s : State) (o : Origin) (k st : Byte) (r : List Byte) : (s.remember o k st r).replies = s.replies := rfl
@[simp] theorem State.lineTx_remember (s : State) (o : Origin) (k st : Byte) (r : List Byte) : (s.remember o k st r).lineTx = s.lineTx := rfl
@[simp] theorem State.delivery_remember (s : State) (o : Origin) (k st : Byte) (r : List Byte) : (s.remember o k st r).delivery = s.delivery := rfl
@[simp] theorem State.tapTx_remember (s : State) (o : Origin) (k st : Byte) (r : List Byte) : (s.remember o k st r).tapTx = s.tapTx := rfl
@[simp] theorem State.memory_remember (s : State) (o : Origin) (k st : Byte) (r : List Byte) : (s.remember o k st r).memory = s.memory.set o.port (some { tag := o.tag, kind := k, status := st, results := r }) := rfl
@[simp] theorem State.config_remember (s : State) (o : Origin) (k st : Byte) (r : List Byte) : (s.remember o k st r).config = s.config := rfl
@[simp] theorem State.pending_remember (s : State) (o : Origin) (k st : Byte) (r : List Byte) : (s.remember o k st r).pending = s.pending := rfl

/-! ## endOp -/

@[simp] theorem State.resetAsserted_endOp (s : State) : (s.endOp).resetAsserted = s.resetAsserted := rfl
@[simp] theorem State.guardRelease_endOp (s : State) : (s.endOp).guardRelease = s.guardRelease := rfl
@[simp] theorem State.opState_endOp (s : State) : (s.endOp).opState = s.opState := rfl
@[simp] theorem State.store_endOp (s : State) : (s.endOp).store = s.store := rfl
@[simp] theorem State.program_endOp (s : State) : (s.endOp).program = s.program := rfl
@[simp] theorem State.banks_endOp (s : State) : (s.endOp).banks = s.banks := rfl
@[simp] theorem State.cfgBank_endOp (s : State) : (s.endOp).cfgBank = s.cfgBank := rfl
@[simp] theorem State.index_endOp (s : State) : (s.endOp).index = s.index := rfl
@[simp] theorem State.staging_endOp (s : State) : (s.endOp).staging = s.staging := rfl
@[simp] theorem State.queue_endOp (s : State) : (s.endOp).queue = s.queue := rfl
@[simp] theorem State.op_endOp (s : State) : (s.endOp).op = .idle := rfl
@[simp] theorem State.suspended_endOp (s : State) : (s.endOp).suspended = s.suspended := rfl
@[simp] theorem State.issue_endOp (s : State) : (s.endOp).issue = s.issue := rfl
@[simp] theorem State.faults_endOp (s : State) : (s.endOp).faults = s.faults := rfl
@[simp] theorem State.overflow_endOp (s : State) : (s.endOp).overflow = s.overflow := rfl
@[simp] theorem State.segs_endOp (s : State) : (s.endOp).segs = s.segs := rfl
@[simp] theorem State.ingress_endOp (s : State) : (s.endOp).ingress = s.ingress := rfl
@[simp] theorem State.stages_endOp (s : State) : (s.endOp).stages = s.stages := rfl
@[simp] theorem State.counters_endOp (s : State) : (s.endOp).counters = s.counters := rfl
@[simp] theorem State.traffic_endOp (s : State) : (s.endOp).traffic = s.traffic := rfl
@[simp] theorem State.replies_endOp (s : State) : (s.endOp).replies = s.replies := rfl
@[simp] theorem State.lineTx_endOp (s : State) : (s.endOp).lineTx = s.lineTx := rfl
@[simp] theorem State.delivery_endOp (s : State) : (s.endOp).delivery = s.delivery := rfl
@[simp] theorem State.tapTx_endOp (s : State) : (s.endOp).tapTx = s.tapTx := rfl
@[simp] theorem State.memory_endOp (s : State) : (s.endOp).memory = s.memory := rfl
@[simp] theorem State.config_endOp (s : State) : (s.endOp).config = s.config := rfl
@[simp] theorem State.pending_endOp (s : State) : (s.endOp).pending = s.pending := rfl

end Sys2Proof.Machine
end

