-- ==== Sys2Proof/Laws/Ops.lean ====
section
/-! SUPPORT. The operations of the FIFOs, the transmitters, the Fault List and the reply paths: the fields each leaves alone,
and what each does. -/

namespace Sys2Proof.Machine

/-! ## What each leaves alone -/

@[simp] theorem State.resetAsserted_kickLine (s : State) (l : Line) : (s.kickLine l).resetAsserted = s.resetAsserted := by
  unfold State.kickLine; split <;> first | rfl | (split <;> first | rfl | (split <;> rfl))
@[simp] theorem State.guardRelease_kickLine (s : State) (l : Line) : (s.kickLine l).guardRelease = s.guardRelease := by
  unfold State.kickLine; split <;> first | rfl | (split <;> first | rfl | (split <;> rfl))
@[simp] theorem State.opState_kickLine (s : State) (l : Line) : (s.kickLine l).opState = s.opState := by
  unfold State.kickLine; split <;> first | rfl | (split <;> first | rfl | (split <;> rfl))
@[simp] theorem State.store_kickLine (s : State) (l : Line) : (s.kickLine l).store = s.store := by
  unfold State.kickLine; split <;> first | rfl | (split <;> first | rfl | (split <;> rfl))
@[simp] theorem State.program_kickLine (s : State) (l : Line) : (s.kickLine l).program = s.program := by
  unfold State.kickLine; split <;> first | rfl | (split <;> first | rfl | (split <;> rfl))
@[simp] theorem State.banks_kickLine (s : State) (l : Line) : (s.kickLine l).banks = s.banks := by
  unfold State.kickLine; split <;> first | rfl | (split <;> first | rfl | (split <;> rfl))
@[simp] theorem State.cfgBank_kickLine (s : State) (l : Line) : (s.kickLine l).cfgBank = s.cfgBank := by
  unfold State.kickLine; split <;> first | rfl | (split <;> first | rfl | (split <;> rfl))
@[simp] theorem State.index_kickLine (s : State) (l : Line) : (s.kickLine l).index = s.index := by
  unfold State.kickLine; split <;> first | rfl | (split <;> first | rfl | (split <;> rfl))
@[simp] theorem State.staging_kickLine (s : State) (l : Line) : (s.kickLine l).staging = s.staging := by
  unfold State.kickLine; split <;> first | rfl | (split <;> first | rfl | (split <;> rfl))
@[simp] theorem State.queue_kickLine (s : State) (l : Line) : (s.kickLine l).queue = s.queue := by
  unfold State.kickLine; split <;> first | rfl | (split <;> first | rfl | (split <;> rfl))
@[simp] theorem State.op_kickLine (s : State) (l : Line) : (s.kickLine l).op = s.op := by
  unfold State.kickLine; split <;> first | rfl | (split <;> first | rfl | (split <;> rfl))
@[simp] theorem State.suspended_kickLine (s : State) (l : Line) : (s.kickLine l).suspended = s.suspended := by
  unfold State.kickLine; split <;> first | rfl | (split <;> first | rfl | (split <;> rfl))
@[simp] theorem State.issue_kickLine (s : State) (l : Line) : (s.kickLine l).issue = s.issue := by
  unfold State.kickLine; split <;> first | rfl | (split <;> first | rfl | (split <;> rfl))
@[simp] theorem State.faults_kickLine (s : State) (l : Line) : (s.kickLine l).faults = s.faults := by
  unfold State.kickLine; split <;> first | rfl | (split <;> first | rfl | (split <;> rfl))
@[simp] theorem State.overflow_kickLine (s : State) (l : Line) : (s.kickLine l).overflow = s.overflow := by
  unfold State.kickLine; split <;> first | rfl | (split <;> first | rfl | (split <;> rfl))
@[simp] theorem State.segs_kickLine (s : State) (l : Line) : (s.kickLine l).segs = s.segs := by
  unfold State.kickLine; split <;> first | rfl | (split <;> first | rfl | (split <;> rfl))
@[simp] theorem State.ingress_kickLine (s : State) (l : Line) : (s.kickLine l).ingress = s.ingress := by
  unfold State.kickLine; split <;> first | rfl | (split <;> first | rfl | (split <;> rfl))
@[simp] theorem State.stages_kickLine (s : State) (l : Line) : (s.kickLine l).stages = s.stages := by
  unfold State.kickLine; split <;> first | rfl | (split <;> first | rfl | (split <;> rfl))
@[simp] theorem State.counters_kickLine (s : State) (l : Line) : (s.kickLine l).counters = s.counters := by
  unfold State.kickLine; split <;> first | rfl | (split <;> first | rfl | (split <;> rfl))
@[simp] theorem State.delivery_kickLine (s : State) (l : Line) : (s.kickLine l).delivery = s.delivery := by
  unfold State.kickLine; split <;> first | rfl | (split <;> first | rfl | (split <;> rfl))
@[simp] theorem State.tapTx_kickLine (s : State) (l : Line) : (s.kickLine l).tapTx = s.tapTx := by
  unfold State.kickLine; split <;> first | rfl | (split <;> first | rfl | (split <;> rfl))
@[simp] theorem State.memory_kickLine (s : State) (l : Line) : (s.kickLine l).memory = s.memory := by
  unfold State.kickLine; split <;> first | rfl | (split <;> first | rfl | (split <;> rfl))
@[simp] theorem State.config_kickLine (s : State) (l : Line) : (s.kickLine l).config = s.config := by
  unfold State.kickLine; split <;> first | rfl | (split <;> first | rfl | (split <;> rfl))
@[simp] theorem State.pending_kickLine (s : State) (l : Line) : (s.kickLine l).pending = s.pending := by
  unfold State.kickLine; split <;> first | rfl | (split <;> first | rfl | (split <;> rfl))

@[simp] theorem State.resetAsserted_kickTap (s : State) : (s.kickTap).resetAsserted = s.resetAsserted := by
  unfold State.kickTap; split <;> first | rfl | (split <;> rfl)
@[simp] theorem State.guardRelease_kickTap (s : State) : (s.kickTap).guardRelease = s.guardRelease := by
  unfold State.kickTap; split <;> first | rfl | (split <;> rfl)
@[simp] theorem State.opState_kickTap (s : State) : (s.kickTap).opState = s.opState := by
  unfold State.kickTap; split <;> first | rfl | (split <;> rfl)
@[simp] theorem State.store_kickTap (s : State) : (s.kickTap).store = s.store := by
  unfold State.kickTap; split <;> first | rfl | (split <;> rfl)
@[simp] theorem State.program_kickTap (s : State) : (s.kickTap).program = s.program := by
  unfold State.kickTap; split <;> first | rfl | (split <;> rfl)
@[simp] theorem State.banks_kickTap (s : State) : (s.kickTap).banks = s.banks := by
  unfold State.kickTap; split <;> first | rfl | (split <;> rfl)
@[simp] theorem State.cfgBank_kickTap (s : State) : (s.kickTap).cfgBank = s.cfgBank := by
  unfold State.kickTap; split <;> first | rfl | (split <;> rfl)
@[simp] theorem State.index_kickTap (s : State) : (s.kickTap).index = s.index := by
  unfold State.kickTap; split <;> first | rfl | (split <;> rfl)
@[simp] theorem State.staging_kickTap (s : State) : (s.kickTap).staging = s.staging := by
  unfold State.kickTap; split <;> first | rfl | (split <;> rfl)
@[simp] theorem State.queue_kickTap (s : State) : (s.kickTap).queue = s.queue := by
  unfold State.kickTap; split <;> first | rfl | (split <;> rfl)
@[simp] theorem State.op_kickTap (s : State) : (s.kickTap).op = s.op := by
  unfold State.kickTap; split <;> first | rfl | (split <;> rfl)
@[simp] theorem State.suspended_kickTap (s : State) : (s.kickTap).suspended = s.suspended := by
  unfold State.kickTap; split <;> first | rfl | (split <;> rfl)
@[simp] theorem State.issue_kickTap (s : State) : (s.kickTap).issue = s.issue := by
  unfold State.kickTap; split <;> first | rfl | (split <;> rfl)
@[simp] theorem State.faults_kickTap (s : State) : (s.kickTap).faults = s.faults := by
  unfold State.kickTap; split <;> first | rfl | (split <;> rfl)
@[simp] theorem State.overflow_kickTap (s : State) : (s.kickTap).overflow = s.overflow := by
  unfold State.kickTap; split <;> first | rfl | (split <;> rfl)
@[simp] theorem State.segs_kickTap (s : State) : (s.kickTap).segs = s.segs := by
  unfold State.kickTap; split <;> first | rfl | (split <;> rfl)
@[simp] theorem State.ingress_kickTap (s : State) : (s.kickTap).ingress = s.ingress := by
  unfold State.kickTap; split <;> first | rfl | (split <;> rfl)
@[simp] theorem State.stages_kickTap (s : State) : (s.kickTap).stages = s.stages := by
  unfold State.kickTap; split <;> first | rfl | (split <;> rfl)
@[simp] theorem State.counters_kickTap (s : State) : (s.kickTap).counters = s.counters := by
  unfold State.kickTap; split <;> first | rfl | (split <;> rfl)
@[simp] theorem State.traffic_kickTap (s : State) : (s.kickTap).traffic = s.traffic := by
  unfold State.kickTap; split <;> first | rfl | (split <;> rfl)
@[simp] theorem State.replies_kickTap (s : State) : (s.kickTap).replies = s.replies := by
  unfold State.kickTap; split <;> first | rfl | (split <;> rfl)
@[simp] theorem State.lineTx_kickTap (s : State) : (s.kickTap).lineTx = s.lineTx := by
  unfold State.kickTap; split <;> first | rfl | (split <;> rfl)
@[simp] theorem State.memory_kickTap (s : State) : (s.kickTap).memory = s.memory := by
  unfold State.kickTap; split <;> first | rfl | (split <;> rfl)
@[simp] theorem State.config_kickTap (s : State) : (s.kickTap).config = s.config := by
  unfold State.kickTap; split <;> first | rfl | (split <;> rfl)
@[simp] theorem State.pending_kickTap (s : State) : (s.kickTap).pending = s.pending := by
  unfold State.kickTap; split <;> first | rfl | (split <;> rfl)

@[simp] theorem State.resetAsserted_placeTraffic (s : State) (l : Line) (f : Frame) : (s.placeTraffic l f).resetAsserted = s.resetAsserted := by
  unfold State.placeTraffic; split <;> simp
@[simp] theorem State.guardRelease_placeTraffic (s : State) (l : Line) (f : Frame) : (s.placeTraffic l f).guardRelease = s.guardRelease := by
  unfold State.placeTraffic; split <;> simp
@[simp] theorem State.opState_placeTraffic (s : State) (l : Line) (f : Frame) : (s.placeTraffic l f).opState = s.opState := by
  unfold State.placeTraffic; split <;> simp
@[simp] theorem State.store_placeTraffic (s : State) (l : Line) (f : Frame) : (s.placeTraffic l f).store = s.store := by
  unfold State.placeTraffic; split <;> simp
@[simp] theorem State.program_placeTraffic (s : State) (l : Line) (f : Frame) : (s.placeTraffic l f).program = s.program := by
  unfold State.placeTraffic; split <;> simp
@[simp] theorem State.banks_placeTraffic (s : State) (l : Line) (f : Frame) : (s.placeTraffic l f).banks = s.banks := by
  unfold State.placeTraffic; split <;> simp
@[simp] theorem State.cfgBank_placeTraffic (s : State) (l : Line) (f : Frame) : (s.placeTraffic l f).cfgBank = s.cfgBank := by
  unfold State.placeTraffic; split <;> simp
@[simp] theorem State.index_placeTraffic (s : State) (l : Line) (f : Frame) : (s.placeTraffic l f).index = s.index := by
  unfold State.placeTraffic; split <;> simp
@[simp] theorem State.staging_placeTraffic (s : State) (l : Line) (f : Frame) : (s.placeTraffic l f).staging = s.staging := by
  unfold State.placeTraffic; split <;> simp
@[simp] theorem State.queue_placeTraffic (s : State) (l : Line) (f : Frame) : (s.placeTraffic l f).queue = s.queue := by
  unfold State.placeTraffic; split <;> simp
@[simp] theorem State.op_placeTraffic (s : State) (l : Line) (f : Frame) : (s.placeTraffic l f).op = s.op := by
  unfold State.placeTraffic; split <;> simp
@[simp] theorem State.suspended_placeTraffic (s : State) (l : Line) (f : Frame) : (s.placeTraffic l f).suspended = s.suspended := by
  unfold State.placeTraffic; split <;> simp
@[simp] theorem State.issue_placeTraffic (s : State) (l : Line) (f : Frame) : (s.placeTraffic l f).issue = s.issue := by
  unfold State.placeTraffic; split <;> simp
@[simp] theorem State.faults_placeTraffic (s : State) (l : Line) (f : Frame) : (s.placeTraffic l f).faults = s.faults := by
  unfold State.placeTraffic; split <;> simp
@[simp] theorem State.overflow_placeTraffic (s : State) (l : Line) (f : Frame) : (s.placeTraffic l f).overflow = s.overflow := by
  unfold State.placeTraffic; split <;> simp
@[simp] theorem State.segs_placeTraffic (s : State) (l : Line) (f : Frame) : (s.placeTraffic l f).segs = s.segs := by
  unfold State.placeTraffic; split <;> simp
@[simp] theorem State.ingress_placeTraffic (s : State) (l : Line) (f : Frame) : (s.placeTraffic l f).ingress = s.ingress := by
  unfold State.placeTraffic; split <;> simp
@[simp] theorem State.stages_placeTraffic (s : State) (l : Line) (f : Frame) : (s.placeTraffic l f).stages = s.stages := by
  unfold State.placeTraffic; split <;> simp
@[simp] theorem State.delivery_placeTraffic (s : State) (l : Line) (f : Frame) : (s.placeTraffic l f).delivery = s.delivery := by
  unfold State.placeTraffic; split <;> simp
@[simp] theorem State.tapTx_placeTraffic (s : State) (l : Line) (f : Frame) : (s.placeTraffic l f).tapTx = s.tapTx := by
  unfold State.placeTraffic; split <;> simp
@[simp] theorem State.memory_placeTraffic (s : State) (l : Line) (f : Frame) : (s.placeTraffic l f).memory = s.memory := by
  unfold State.placeTraffic; split <;> simp
@[simp] theorem State.config_placeTraffic (s : State) (l : Line) (f : Frame) : (s.placeTraffic l f).config = s.config := by
  unfold State.placeTraffic; split <;> simp
@[simp] theorem State.pending_placeTraffic (s : State) (l : Line) (f : Frame) : (s.placeTraffic l f).pending = s.pending := by
  unfold State.placeTraffic; split <;> simp

@[simp] theorem State.resetAsserted_carryTraffic (s : State) (l : Line) (f : Frame) : (s.carryTraffic l f).resetAsserted = s.resetAsserted := by
  unfold State.carryTraffic; split <;> simp
@[simp] theorem State.guardRelease_carryTraffic (s : State) (l : Line) (f : Frame) : (s.carryTraffic l f).guardRelease = s.guardRelease := by
  unfold State.carryTraffic; split <;> simp
@[simp] theorem State.opState_carryTraffic (s : State) (l : Line) (f : Frame) : (s.carryTraffic l f).opState = s.opState := by
  unfold State.carryTraffic; split <;> simp
@[simp] theorem State.store_carryTraffic (s : State) (l : Line) (f : Frame) : (s.carryTraffic l f).store = s.store := by
  unfold State.carryTraffic; split <;> simp
@[simp] theorem State.program_carryTraffic (s : State) (l : Line) (f : Frame) : (s.carryTraffic l f).program = s.program := by
  unfold State.carryTraffic; split <;> simp
@[simp] theorem State.banks_carryTraffic (s : State) (l : Line) (f : Frame) : (s.carryTraffic l f).banks = s.banks := by
  unfold State.carryTraffic; split <;> simp
@[simp] theorem State.cfgBank_carryTraffic (s : State) (l : Line) (f : Frame) : (s.carryTraffic l f).cfgBank = s.cfgBank := by
  unfold State.carryTraffic; split <;> simp
@[simp] theorem State.index_carryTraffic (s : State) (l : Line) (f : Frame) : (s.carryTraffic l f).index = s.index := by
  unfold State.carryTraffic; split <;> simp
@[simp] theorem State.staging_carryTraffic (s : State) (l : Line) (f : Frame) : (s.carryTraffic l f).staging = s.staging := by
  unfold State.carryTraffic; split <;> simp
@[simp] theorem State.queue_carryTraffic (s : State) (l : Line) (f : Frame) : (s.carryTraffic l f).queue = s.queue := by
  unfold State.carryTraffic; split <;> simp
@[simp] theorem State.op_carryTraffic (s : State) (l : Line) (f : Frame) : (s.carryTraffic l f).op = s.op := by
  unfold State.carryTraffic; split <;> simp
@[simp] theorem State.suspended_carryTraffic (s : State) (l : Line) (f : Frame) : (s.carryTraffic l f).suspended = s.suspended := by
  unfold State.carryTraffic; split <;> simp
@[simp] theorem State.issue_carryTraffic (s : State) (l : Line) (f : Frame) : (s.carryTraffic l f).issue = s.issue := by
  unfold State.carryTraffic; split <;> simp
@[simp] theorem State.faults_carryTraffic (s : State) (l : Line) (f : Frame) : (s.carryTraffic l f).faults = s.faults := by
  unfold State.carryTraffic; split <;> simp
@[simp] theorem State.overflow_carryTraffic (s : State) (l : Line) (f : Frame) : (s.carryTraffic l f).overflow = s.overflow := by
  unfold State.carryTraffic; split <;> simp
@[simp] theorem State.segs_carryTraffic (s : State) (l : Line) (f : Frame) : (s.carryTraffic l f).segs = s.segs := by
  unfold State.carryTraffic; split <;> simp
@[simp] theorem State.ingress_carryTraffic (s : State) (l : Line) (f : Frame) : (s.carryTraffic l f).ingress = s.ingress := by
  unfold State.carryTraffic; split <;> simp
@[simp] theorem State.stages_carryTraffic (s : State) (l : Line) (f : Frame) : (s.carryTraffic l f).stages = s.stages := by
  unfold State.carryTraffic; split <;> simp
@[simp] theorem State.counters_carryTraffic (s : State) (l : Line) (f : Frame) : (s.carryTraffic l f).counters = s.counters := by
  unfold State.carryTraffic; split <;> simp
@[simp] theorem State.delivery_carryTraffic (s : State) (l : Line) (f : Frame) : (s.carryTraffic l f).delivery = s.delivery := by
  unfold State.carryTraffic; split <;> simp
@[simp] theorem State.tapTx_carryTraffic (s : State) (l : Line) (f : Frame) : (s.carryTraffic l f).tapTx = s.tapTx := by
  unfold State.carryTraffic; split <;> simp
@[simp] theorem State.memory_carryTraffic (s : State) (l : Line) (f : Frame) : (s.carryTraffic l f).memory = s.memory := by
  unfold State.carryTraffic; split <;> simp
@[simp] theorem State.config_carryTraffic (s : State) (l : Line) (f : Frame) : (s.carryTraffic l f).config = s.config := by
  unfold State.carryTraffic; split <;> simp
@[simp] theorem State.pending_carryTraffic (s : State) (l : Line) (f : Frame) : (s.carryTraffic l f).pending = s.pending := by
  unfold State.carryTraffic; split <;> simp

@[simp] theorem State.resetAsserted_placeDelivery (s : State) (f : Frame) : (s.placeDelivery f).resetAsserted = s.resetAsserted := by
  unfold State.placeDelivery; split <;> simp
@[simp] theorem State.guardRelease_placeDelivery (s : State) (f : Frame) : (s.placeDelivery f).guardRelease = s.guardRelease := by
  unfold State.placeDelivery; split <;> simp
@[simp] theorem State.opState_placeDelivery (s : State) (f : Frame) : (s.placeDelivery f).opState = s.opState := by
  unfold State.placeDelivery; split <;> simp
@[simp] theorem State.store_placeDelivery (s : State) (f : Frame) : (s.placeDelivery f).store = s.store := by
  unfold State.placeDelivery; split <;> simp
@[simp] theorem State.program_placeDelivery (s : State) (f : Frame) : (s.placeDelivery f).program = s.program := by
  unfold State.placeDelivery; split <;> simp
@[simp] theorem State.banks_placeDelivery (s : State) (f : Frame) : (s.placeDelivery f).banks = s.banks := by
  unfold State.placeDelivery; split <;> simp
@[simp] theorem State.cfgBank_placeDelivery (s : State) (f : Frame) : (s.placeDelivery f).cfgBank = s.cfgBank := by
  unfold State.placeDelivery; split <;> simp
@[simp] theorem State.index_placeDelivery (s : State) (f : Frame) : (s.placeDelivery f).index = s.index := by
  unfold State.placeDelivery; split <;> simp
@[simp] theorem State.staging_placeDelivery (s : State) (f : Frame) : (s.placeDelivery f).staging = s.staging := by
  unfold State.placeDelivery; split <;> simp
@[simp] theorem State.queue_placeDelivery (s : State) (f : Frame) : (s.placeDelivery f).queue = s.queue := by
  unfold State.placeDelivery; split <;> simp
@[simp] theorem State.op_placeDelivery (s : State) (f : Frame) : (s.placeDelivery f).op = s.op := by
  unfold State.placeDelivery; split <;> simp
@[simp] theorem State.suspended_placeDelivery (s : State) (f : Frame) : (s.placeDelivery f).suspended = s.suspended := by
  unfold State.placeDelivery; split <;> simp
@[simp] theorem State.issue_placeDelivery (s : State) (f : Frame) : (s.placeDelivery f).issue = s.issue := by
  unfold State.placeDelivery; split <;> simp
@[simp] theorem State.faults_placeDelivery (s : State) (f : Frame) : (s.placeDelivery f).faults = s.faults := by
  unfold State.placeDelivery; split <;> simp
@[simp] theorem State.overflow_placeDelivery (s : State) (f : Frame) : (s.placeDelivery f).overflow = s.overflow := by
  unfold State.placeDelivery; split <;> simp
@[simp] theorem State.segs_placeDelivery (s : State) (f : Frame) : (s.placeDelivery f).segs = s.segs := by
  unfold State.placeDelivery; split <;> simp
@[simp] theorem State.ingress_placeDelivery (s : State) (f : Frame) : (s.placeDelivery f).ingress = s.ingress := by
  unfold State.placeDelivery; split <;> simp
@[simp] theorem State.stages_placeDelivery (s : State) (f : Frame) : (s.placeDelivery f).stages = s.stages := by
  unfold State.placeDelivery; split <;> simp
@[simp] theorem State.traffic_placeDelivery (s : State) (f : Frame) : (s.placeDelivery f).traffic = s.traffic := by
  unfold State.placeDelivery; split <;> simp
@[simp] theorem State.replies_placeDelivery (s : State) (f : Frame) : (s.placeDelivery f).replies = s.replies := by
  unfold State.placeDelivery; split <;> simp
@[simp] theorem State.lineTx_placeDelivery (s : State) (f : Frame) : (s.placeDelivery f).lineTx = s.lineTx := by
  unfold State.placeDelivery; split <;> simp
@[simp] theorem State.memory_placeDelivery (s : State) (f : Frame) : (s.placeDelivery f).memory = s.memory := by
  unfold State.placeDelivery; split <;> simp
@[simp] theorem State.config_placeDelivery (s : State) (f : Frame) : (s.placeDelivery f).config = s.config := by
  unfold State.placeDelivery; split <;> simp
@[simp] theorem State.pending_placeDelivery (s : State) (f : Frame) : (s.placeDelivery f).pending = s.pending := by
  unfold State.placeDelivery; split <;> simp

@[simp] theorem State.resetAsserted_appendReply (s : State) (l : Line) (o : Outgoing) : (s.appendReply l o).resetAsserted = s.resetAsserted := by
  unfold State.appendReply; simp
@[simp] theorem State.guardRelease_appendReply (s : State) (l : Line) (o : Outgoing) : (s.appendReply l o).guardRelease = s.guardRelease := by
  unfold State.appendReply; simp
@[simp] theorem State.opState_appendReply (s : State) (l : Line) (o : Outgoing) : (s.appendReply l o).opState = s.opState := by
  unfold State.appendReply; simp
@[simp] theorem State.store_appendReply (s : State) (l : Line) (o : Outgoing) : (s.appendReply l o).store = s.store := by
  unfold State.appendReply; simp
@[simp] theorem State.program_appendReply (s : State) (l : Line) (o : Outgoing) : (s.appendReply l o).program = s.program := by
  unfold State.appendReply; simp
@[simp] theorem State.banks_appendReply (s : State) (l : Line) (o : Outgoing) : (s.appendReply l o).banks = s.banks := by
  unfold State.appendReply; simp
@[simp] theorem State.cfgBank_appendReply (s : State) (l : Line) (o : Outgoing) : (s.appendReply l o).cfgBank = s.cfgBank := by
  unfold State.appendReply; simp
@[simp] theorem State.index_appendReply (s : State) (l : Line) (o : Outgoing) : (s.appendReply l o).index = s.index := by
  unfold State.appendReply; simp
@[simp] theorem State.staging_appendReply (s : State) (l : Line) (o : Outgoing) : (s.appendReply l o).staging = s.staging := by
  unfold State.appendReply; simp
@[simp] theorem State.queue_appendReply (s : State) (l : Line) (o : Outgoing) : (s.appendReply l o).queue = s.queue := by
  unfold State.appendReply; simp
@[simp] theorem State.op_appendReply (s : State) (l : Line) (o : Outgoing) : (s.appendReply l o).op = s.op := by
  unfold State.appendReply; simp
@[simp] theorem State.suspended_appendReply (s : State) (l : Line) (o : Outgoing) : (s.appendReply l o).suspended = s.suspended := by
  unfold State.appendReply; simp
@[simp] theorem State.issue_appendReply (s : State) (l : Line) (o : Outgoing) : (s.appendReply l o).issue = s.issue := by
  unfold State.appendReply; simp
@[simp] theorem State.faults_appendReply (s : State) (l : Line) (o : Outgoing) : (s.appendReply l o).faults = s.faults := by
  unfold State.appendReply; simp
@[simp] theorem State.overflow_appendReply (s : State) (l : Line) (o : Outgoing) : (s.appendReply l o).overflow = s.overflow := by
  unfold State.appendReply; simp
@[simp] theorem State.segs_appendReply (s : State) (l : Line) (o : Outgoing) : (s.appendReply l o).segs = s.segs := by
  unfold State.appendReply; simp
@[simp] theorem State.ingress_appendReply (s : State) (l : Line) (o : Outgoing) : (s.appendReply l o).ingress = s.ingress := by
  unfold State.appendReply; simp
@[simp] theorem State.stages_appendReply (s : State) (l : Line) (o : Outgoing) : (s.appendReply l o).stages = s.stages := by
  unfold State.appendReply; simp
@[simp] theorem State.counters_appendReply (s : State) (l : Line) (o : Outgoing) : (s.appendReply l o).counters = s.counters := by
  unfold State.appendReply; simp
@[simp] theorem State.delivery_appendReply (s : State) (l : Line) (o : Outgoing) : (s.appendReply l o).delivery = s.delivery := by
  unfold State.appendReply; simp
@[simp] theorem State.tapTx_appendReply (s : State) (l : Line) (o : Outgoing) : (s.appendReply l o).tapTx = s.tapTx := by
  unfold State.appendReply; simp
@[simp] theorem State.memory_appendReply (s : State) (l : Line) (o : Outgoing) : (s.appendReply l o).memory = s.memory := by
  unfold State.appendReply; simp
@[simp] theorem State.config_appendReply (s : State) (l : Line) (o : Outgoing) : (s.appendReply l o).config = s.config := by
  unfold State.appendReply; simp
@[simp] theorem State.pending_appendReply (s : State) (l : Line) (o : Outgoing) : (s.appendReply l o).pending = s.pending := by
  unfold State.appendReply; simp

@[simp] theorem State.resetAsserted_placeReply (s : State) (p : Port) (o : Outgoing) : (s.placeReply p o).resetAsserted = s.resetAsserted := by
  unfold State.placeReply; split <;> first | (split <;> simp) | simp
@[simp] theorem State.guardRelease_placeReply (s : State) (p : Port) (o : Outgoing) : (s.placeReply p o).guardRelease = s.guardRelease := by
  unfold State.placeReply; split <;> first | (split <;> simp) | simp
@[simp] theorem State.opState_placeReply (s : State) (p : Port) (o : Outgoing) : (s.placeReply p o).opState = s.opState := by
  unfold State.placeReply; split <;> first | (split <;> simp) | simp
@[simp] theorem State.store_placeReply (s : State) (p : Port) (o : Outgoing) : (s.placeReply p o).store = s.store := by
  unfold State.placeReply; split <;> first | (split <;> simp) | simp
@[simp] theorem State.program_placeReply (s : State) (p : Port) (o : Outgoing) : (s.placeReply p o).program = s.program := by
  unfold State.placeReply; split <;> first | (split <;> simp) | simp
@[simp] theorem State.banks_placeReply (s : State) (p : Port) (o : Outgoing) : (s.placeReply p o).banks = s.banks := by
  unfold State.placeReply; split <;> first | (split <;> simp) | simp
@[simp] theorem State.cfgBank_placeReply (s : State) (p : Port) (o : Outgoing) : (s.placeReply p o).cfgBank = s.cfgBank := by
  unfold State.placeReply; split <;> first | (split <;> simp) | simp
@[simp] theorem State.index_placeReply (s : State) (p : Port) (o : Outgoing) : (s.placeReply p o).index = s.index := by
  unfold State.placeReply; split <;> first | (split <;> simp) | simp
@[simp] theorem State.staging_placeReply (s : State) (p : Port) (o : Outgoing) : (s.placeReply p o).staging = s.staging := by
  unfold State.placeReply; split <;> first | (split <;> simp) | simp
@[simp] theorem State.queue_placeReply (s : State) (p : Port) (o : Outgoing) : (s.placeReply p o).queue = s.queue := by
  unfold State.placeReply; split <;> first | (split <;> simp) | simp
@[simp] theorem State.op_placeReply (s : State) (p : Port) (o : Outgoing) : (s.placeReply p o).op = s.op := by
  unfold State.placeReply; split <;> first | (split <;> simp) | simp
@[simp] theorem State.suspended_placeReply (s : State) (p : Port) (o : Outgoing) : (s.placeReply p o).suspended = s.suspended := by
  unfold State.placeReply; split <;> first | (split <;> simp) | simp
@[simp] theorem State.issue_placeReply (s : State) (p : Port) (o : Outgoing) : (s.placeReply p o).issue = s.issue := by
  unfold State.placeReply; split <;> first | (split <;> simp) | simp
@[simp] theorem State.faults_placeReply (s : State) (p : Port) (o : Outgoing) : (s.placeReply p o).faults = s.faults := by
  unfold State.placeReply; split <;> first | (split <;> simp) | simp
@[simp] theorem State.overflow_placeReply (s : State) (p : Port) (o : Outgoing) : (s.placeReply p o).overflow = s.overflow := by
  unfold State.placeReply; split <;> first | (split <;> simp) | simp
@[simp] theorem State.segs_placeReply (s : State) (p : Port) (o : Outgoing) : (s.placeReply p o).segs = s.segs := by
  unfold State.placeReply; split <;> first | (split <;> simp) | simp
@[simp] theorem State.ingress_placeReply (s : State) (p : Port) (o : Outgoing) : (s.placeReply p o).ingress = s.ingress := by
  unfold State.placeReply; split <;> first | (split <;> simp) | simp
@[simp] theorem State.stages_placeReply (s : State) (p : Port) (o : Outgoing) : (s.placeReply p o).stages = s.stages := by
  unfold State.placeReply; split <;> first | (split <;> simp) | simp
@[simp] theorem State.memory_placeReply (s : State) (p : Port) (o : Outgoing) : (s.placeReply p o).memory = s.memory := by
  unfold State.placeReply; split <;> first | (split <;> simp) | simp
@[simp] theorem State.config_placeReply (s : State) (p : Port) (o : Outgoing) : (s.placeReply p o).config = s.config := by
  unfold State.placeReply; split <;> first | (split <;> simp) | simp
@[simp] theorem State.pending_placeReply (s : State) (p : Port) (o : Outgoing) : (s.placeReply p o).pending = s.pending := by
  unfold State.placeReply; split <;> first | (split <;> simp) | simp

@[simp] theorem State.resetAsserted_addFault (s : State) (r : FaultRecord) : (s.addFault r).resetAsserted = s.resetAsserted := by
  unfold State.addFault; split <;> rfl
@[simp] theorem State.guardRelease_addFault (s : State) (r : FaultRecord) : (s.addFault r).guardRelease = s.guardRelease := by
  unfold State.addFault; split <;> rfl
@[simp] theorem State.opState_addFault (s : State) (r : FaultRecord) : (s.addFault r).opState = s.opState := by
  unfold State.addFault; split <;> rfl
@[simp] theorem State.store_addFault (s : State) (r : FaultRecord) : (s.addFault r).store = s.store := by
  unfold State.addFault; split <;> rfl
@[simp] theorem State.program_addFault (s : State) (r : FaultRecord) : (s.addFault r).program = s.program := by
  unfold State.addFault; split <;> rfl
@[simp] theorem State.banks_addFault (s : State) (r : FaultRecord) : (s.addFault r).banks = s.banks := by
  unfold State.addFault; split <;> rfl
@[simp] theorem State.cfgBank_addFault (s : State) (r : FaultRecord) : (s.addFault r).cfgBank = s.cfgBank := by
  unfold State.addFault; split <;> rfl
@[simp] theorem State.index_addFault (s : State) (r : FaultRecord) : (s.addFault r).index = s.index := by
  unfold State.addFault; split <;> rfl
@[simp] theorem State.staging_addFault (s : State) (r : FaultRecord) : (s.addFault r).staging = s.staging := by
  unfold State.addFault; split <;> rfl
@[simp] theorem State.queue_addFault (s : State) (r : FaultRecord) : (s.addFault r).queue = s.queue := by
  unfold State.addFault; split <;> rfl
@[simp] theorem State.op_addFault (s : State) (r : FaultRecord) : (s.addFault r).op = s.op := by
  unfold State.addFault; split <;> rfl
@[simp] theorem State.suspended_addFault (s : State) (r : FaultRecord) : (s.addFault r).suspended = s.suspended := by
  unfold State.addFault; split <;> rfl
@[simp] theorem State.issue_addFault (s : State) (r : FaultRecord) : (s.addFault r).issue = s.issue := by
  unfold State.addFault; split <;> rfl
@[simp] theorem State.segs_addFault (s : State) (r : FaultRecord) : (s.addFault r).segs = s.segs := by
  unfold State.addFault; split <;> rfl
@[simp] theorem State.ingress_addFault (s : State) (r : FaultRecord) : (s.addFault r).ingress = s.ingress := by
  unfold State.addFault; split <;> rfl
@[simp] theorem State.stages_addFault (s : State) (r : FaultRecord) : (s.addFault r).stages = s.stages := by
  unfold State.addFault; split <;> rfl
@[simp] theorem State.counters_addFault (s : State) (r : FaultRecord) : (s.addFault r).counters = s.counters := by
  unfold State.addFault; split <;> rfl
@[simp] theorem State.traffic_addFault (s : State) (r : FaultRecord) : (s.addFault r).traffic = s.traffic := by
  unfold State.addFault; split <;> rfl
@[simp] theorem State.replies_addFault (s : State) (r : FaultRecord) : (s.addFault r).replies = s.replies := by
  unfold State.addFault; split <;> rfl
@[simp] theorem State.lineTx_addFault (s : State) (r : FaultRecord) : (s.addFault r).lineTx = s.lineTx := by
  unfold State.addFault; split <;> rfl
@[simp] theorem State.delivery_addFault (s : State) (r : FaultRecord) : (s.addFault r).delivery = s.delivery := by
  unfold State.addFault; split <;> rfl
@[simp] theorem State.tapTx_addFault (s : State) (r : FaultRecord) : (s.addFault r).tapTx = s.tapTx := by
  unfold State.addFault; split <;> rfl
@[simp] theorem State.memory_addFault (s : State) (r : FaultRecord) : (s.addFault r).memory = s.memory := by
  unfold State.addFault; split <;> rfl
@[simp] theorem State.config_addFault (s : State) (r : FaultRecord) : (s.addFault r).config = s.config := by
  unfold State.addFault; split <;> rfl
@[simp] theorem State.pending_addFault (s : State) (r : FaultRecord) : (s.addFault r).pending = s.pending := by
  unfold State.addFault; split <;> rfl

@[simp] theorem State.resetAsserted_emitReply (s : State) (o : Origin) (k st : Byte) (r : List Byte) (a : Bool) : (s.emitReply o k st r a).resetAsserted = s.resetAsserted := by
  unfold State.emitReply; simp
@[simp] theorem State.guardRelease_emitReply (s : State) (o : Origin) (k st : Byte) (r : List Byte) (a : Bool) : (s.emitReply o k st r a).guardRelease = s.guardRelease := by
  unfold State.emitReply; simp
@[simp] theorem State.opState_emitReply (s : State) (o : Origin) (k st : Byte) (r : List Byte) (a : Bool) : (s.emitReply o k st r a).opState = s.opState := by
  unfold State.emitReply; simp
@[simp] theorem State.store_emitReply (s : State) (o : Origin) (k st : Byte) (r : List Byte) (a : Bool) : (s.emitReply o k st r a).store = s.store := by
  unfold State.emitReply; simp
@[simp] theorem State.program_emitReply (s : State) (o : Origin) (k st : Byte) (r : List Byte) (a : Bool) : (s.emitReply o k st r a).program = s.program := by
  unfold State.emitReply; simp
@[simp] theorem State.banks_emitReply (s : State) (o : Origin) (k st : Byte) (r : List Byte) (a : Bool) : (s.emitReply o k st r a).banks = s.banks := by
  unfold State.emitReply; simp
@[simp] theorem State.cfgBank_emitReply (s : State) (o : Origin) (k st : Byte) (r : List Byte) (a : Bool) : (s.emitReply o k st r a).cfgBank = s.cfgBank := by
  unfold State.emitReply; simp
@[simp] theorem State.index_emitReply (s : State) (o : Origin) (k st : Byte) (r : List Byte) (a : Bool) : (s.emitReply o k st r a).index = s.index := by
  unfold State.emitReply; simp
@[simp] theorem State.staging_emitReply (s : State) (o : Origin) (k st : Byte) (r : List Byte) (a : Bool) : (s.emitReply o k st r a).staging = s.staging := by
  unfold State.emitReply; simp
@[simp] theorem State.queue_emitReply (s : State) (o : Origin) (k st : Byte) (r : List Byte) (a : Bool) : (s.emitReply o k st r a).queue = s.queue := by
  unfold State.emitReply; simp
@[simp] theorem State.op_emitReply (s : State) (o : Origin) (k st : Byte) (r : List Byte) (a : Bool) : (s.emitReply o k st r a).op = s.op := by
  unfold State.emitReply; simp
@[simp] theorem State.suspended_emitReply (s : State) (o : Origin) (k st : Byte) (r : List Byte) (a : Bool) : (s.emitReply o k st r a).suspended = s.suspended := by
  unfold State.emitReply; simp
@[simp] theorem State.issue_emitReply (s : State) (o : Origin) (k st : Byte) (r : List Byte) (a : Bool) : (s.emitReply o k st r a).issue = s.issue := by
  unfold State.emitReply; simp
@[simp] theorem State.faults_emitReply (s : State) (o : Origin) (k st : Byte) (r : List Byte) (a : Bool) : (s.emitReply o k st r a).faults = s.faults := by
  unfold State.emitReply; simp
@[simp] theorem State.overflow_emitReply (s : State) (o : Origin) (k st : Byte) (r : List Byte) (a : Bool) : (s.emitReply o k st r a).overflow = s.overflow := by
  unfold State.emitReply; simp
@[simp] theorem State.segs_emitReply (s : State) (o : Origin) (k st : Byte) (r : List Byte) (a : Bool) : (s.emitReply o k st r a).segs = s.segs := by
  unfold State.emitReply; simp
@[simp] theorem State.ingress_emitReply (s : State) (o : Origin) (k st : Byte) (r : List Byte) (a : Bool) : (s.emitReply o k st r a).ingress = s.ingress := by
  unfold State.emitReply; simp
@[simp] theorem State.stages_emitReply (s : State) (o : Origin) (k st : Byte) (r : List Byte) (a : Bool) : (s.emitReply o k st r a).stages = s.stages := by
  unfold State.emitReply; simp
@[simp] theorem State.memory_emitReply (s : State) (o : Origin) (k st : Byte) (r : List Byte) (a : Bool) : (s.emitReply o k st r a).memory = s.memory := by
  unfold State.emitReply; simp
@[simp] theorem State.config_emitReply (s : State) (o : Origin) (k st : Byte) (r : List Byte) (a : Bool) : (s.emitReply o k st r a).config = s.config := by
  unfold State.emitReply; simp
@[simp] theorem State.pending_emitReply (s : State) (o : Origin) (k st : Byte) (r : List Byte) (a : Bool) : (s.emitReply o k st r a).pending = s.pending := by
  unfold State.emitReply; simp

@[simp] theorem State.resetAsserted_replyRead (s : State) (o : Origin) (k : Byte) (st : Status) (r : List Byte) : (s.replyRead o k st r).resetAsserted = s.resetAsserted := by
  unfold State.replyRead; simp
@[simp] theorem State.guardRelease_replyRead (s : State) (o : Origin) (k : Byte) (st : Status) (r : List Byte) : (s.replyRead o k st r).guardRelease = s.guardRelease := by
  unfold State.replyRead; simp
@[simp] theorem State.opState_replyRead (s : State) (o : Origin) (k : Byte) (st : Status) (r : List Byte) : (s.replyRead o k st r).opState = s.opState := by
  unfold State.replyRead; simp
@[simp] theorem State.store_replyRead (s : State) (o : Origin) (k : Byte) (st : Status) (r : List Byte) : (s.replyRead o k st r).store = s.store := by
  unfold State.replyRead; simp
@[simp] theorem State.program_replyRead (s : State) (o : Origin) (k : Byte) (st : Status) (r : List Byte) : (s.replyRead o k st r).program = s.program := by
  unfold State.replyRead; simp
@[simp] theorem State.banks_replyRead (s : State) (o : Origin) (k : Byte) (st : Status) (r : List Byte) : (s.replyRead o k st r).banks = s.banks := by
  unfold State.replyRead; simp
@[simp] theorem State.cfgBank_replyRead (s : State) (o : Origin) (k : Byte) (st : Status) (r : List Byte) : (s.replyRead o k st r).cfgBank = s.cfgBank := by
  unfold State.replyRead; simp
@[simp] theorem State.index_replyRead (s : State) (o : Origin) (k : Byte) (st : Status) (r : List Byte) : (s.replyRead o k st r).index = s.index := by
  unfold State.replyRead; simp
@[simp] theorem State.staging_replyRead (s : State) (o : Origin) (k : Byte) (st : Status) (r : List Byte) : (s.replyRead o k st r).staging = s.staging := by
  unfold State.replyRead; simp
@[simp] theorem State.queue_replyRead (s : State) (o : Origin) (k : Byte) (st : Status) (r : List Byte) : (s.replyRead o k st r).queue = s.queue := by
  unfold State.replyRead; simp
@[simp] theorem State.op_replyRead (s : State) (o : Origin) (k : Byte) (st : Status) (r : List Byte) : (s.replyRead o k st r).op = s.op := by
  unfold State.replyRead; simp
@[simp] theorem State.suspended_replyRead (s : State) (o : Origin) (k : Byte) (st : Status) (r : List Byte) : (s.replyRead o k st r).suspended = s.suspended := by
  unfold State.replyRead; simp
@[simp] theorem State.issue_replyRead (s : State) (o : Origin) (k : Byte) (st : Status) (r : List Byte) : (s.replyRead o k st r).issue = s.issue := by
  unfold State.replyRead; simp
@[simp] theorem State.faults_replyRead (s : State) (o : Origin) (k : Byte) (st : Status) (r : List Byte) : (s.replyRead o k st r).faults = s.faults := by
  unfold State.replyRead; simp
@[simp] theorem State.overflow_replyRead (s : State) (o : Origin) (k : Byte) (st : Status) (r : List Byte) : (s.replyRead o k st r).overflow = s.overflow := by
  unfold State.replyRead; simp
@[simp] theorem State.segs_replyRead (s : State) (o : Origin) (k : Byte) (st : Status) (r : List Byte) : (s.replyRead o k st r).segs = s.segs := by
  unfold State.replyRead; simp
@[simp] theorem State.ingress_replyRead (s : State) (o : Origin) (k : Byte) (st : Status) (r : List Byte) : (s.replyRead o k st r).ingress = s.ingress := by
  unfold State.replyRead; simp
@[simp] theorem State.stages_replyRead (s : State) (o : Origin) (k : Byte) (st : Status) (r : List Byte) : (s.replyRead o k st r).stages = s.stages := by
  unfold State.replyRead; simp
@[simp] theorem State.memory_replyRead (s : State) (o : Origin) (k : Byte) (st : Status) (r : List Byte) : (s.replyRead o k st r).memory = s.memory := by
  unfold State.replyRead; simp
@[simp] theorem State.config_replyRead (s : State) (o : Origin) (k : Byte) (st : Status) (r : List Byte) : (s.replyRead o k st r).config = s.config := by
  unfold State.replyRead; simp
@[simp] theorem State.pending_replyRead (s : State) (o : Origin) (k : Byte) (st : Status) (r : List Byte) : (s.replyRead o k st r).pending = s.pending := by
  unfold State.replyRead; simp

@[simp] theorem State.resetAsserted_replyStored (s : State) (o : Origin) (k : ReqKind) (st : Status) (r : List Byte) : (s.replyStored o k st r).resetAsserted = s.resetAsserted := by
  unfold State.replyStored; split <;> simp
@[simp] theorem State.guardRelease_replyStored (s : State) (o : Origin) (k : ReqKind) (st : Status) (r : List Byte) : (s.replyStored o k st r).guardRelease = s.guardRelease := by
  unfold State.replyStored; split <;> simp
@[simp] theorem State.opState_replyStored (s : State) (o : Origin) (k : ReqKind) (st : Status) (r : List Byte) : (s.replyStored o k st r).opState = s.opState := by
  unfold State.replyStored; split <;> simp
@[simp] theorem State.store_replyStored (s : State) (o : Origin) (k : ReqKind) (st : Status) (r : List Byte) : (s.replyStored o k st r).store = s.store := by
  unfold State.replyStored; split <;> simp
@[simp] theorem State.program_replyStored (s : State) (o : Origin) (k : ReqKind) (st : Status) (r : List Byte) : (s.replyStored o k st r).program = s.program := by
  unfold State.replyStored; split <;> simp
@[simp] theorem State.banks_replyStored (s : State) (o : Origin) (k : ReqKind) (st : Status) (r : List Byte) : (s.replyStored o k st r).banks = s.banks := by
  unfold State.replyStored; split <;> simp
@[simp] theorem State.cfgBank_replyStored (s : State) (o : Origin) (k : ReqKind) (st : Status) (r : List Byte) : (s.replyStored o k st r).cfgBank = s.cfgBank := by
  unfold State.replyStored; split <;> simp
@[simp] theorem State.index_replyStored (s : State) (o : Origin) (k : ReqKind) (st : Status) (r : List Byte) : (s.replyStored o k st r).index = s.index := by
  unfold State.replyStored; split <;> simp
@[simp] theorem State.staging_replyStored (s : State) (o : Origin) (k : ReqKind) (st : Status) (r : List Byte) : (s.replyStored o k st r).staging = s.staging := by
  unfold State.replyStored; split <;> simp
@[simp] theorem State.queue_replyStored (s : State) (o : Origin) (k : ReqKind) (st : Status) (r : List Byte) : (s.replyStored o k st r).queue = s.queue := by
  unfold State.replyStored; split <;> simp
@[simp] theorem State.op_replyStored (s : State) (o : Origin) (k : ReqKind) (st : Status) (r : List Byte) : (s.replyStored o k st r).op = s.op := by
  unfold State.replyStored; split <;> simp
@[simp] theorem State.suspended_replyStored (s : State) (o : Origin) (k : ReqKind) (st : Status) (r : List Byte) : (s.replyStored o k st r).suspended = s.suspended := by
  unfold State.replyStored; split <;> simp
@[simp] theorem State.issue_replyStored (s : State) (o : Origin) (k : ReqKind) (st : Status) (r : List Byte) : (s.replyStored o k st r).issue = s.issue := by
  unfold State.replyStored; split <;> simp
@[simp] theorem State.faults_replyStored (s : State) (o : Origin) (k : ReqKind) (st : Status) (r : List Byte) : (s.replyStored o k st r).faults = s.faults := by
  unfold State.replyStored; split <;> simp
@[simp] theorem State.overflow_replyStored (s : State) (o : Origin) (k : ReqKind) (st : Status) (r : List Byte) : (s.replyStored o k st r).overflow = s.overflow := by
  unfold State.replyStored; split <;> simp
@[simp] theorem State.segs_replyStored (s : State) (o : Origin) (k : ReqKind) (st : Status) (r : List Byte) : (s.replyStored o k st r).segs = s.segs := by
  unfold State.replyStored; split <;> simp
@[simp] theorem State.ingress_replyStored (s : State) (o : Origin) (k : ReqKind) (st : Status) (r : List Byte) : (s.replyStored o k st r).ingress = s.ingress := by
  unfold State.replyStored; split <;> simp
@[simp] theorem State.stages_replyStored (s : State) (o : Origin) (k : ReqKind) (st : Status) (r : List Byte) : (s.replyStored o k st r).stages = s.stages := by
  unfold State.replyStored; split <;> simp
@[simp] theorem State.config_replyStored (s : State) (o : Origin) (k : ReqKind) (st : Status) (r : List Byte) : (s.replyStored o k st r).config = s.config := by
  unfold State.replyStored; split <;> simp
@[simp] theorem State.pending_replyStored (s : State) (o : Origin) (k : ReqKind) (st : Status) (r : List Byte) : (s.replyStored o k st r).pending = s.pending := by
  unfold State.replyStored; split <;> simp

/-! ## What each does -/

/-- A copy that finds room is appended, and starts at once on an idle transmitter with nothing else to send (R135, R136). -/
theorem placeTraffic_room {s : State} {l : Line} (f : Frame) (h : (s.traffic.get l).length < Config.trafficCapacity) :
    s.placeTraffic l f = ({ s with traffic := s.traffic.set l (s.traffic.get l ++ [f]) } : State).kickLine l := by
  unfold State.placeTraffic; rw [if_pos h]

/-- A copy that finds a full traffic FIFO is counted EGRESS_FULL and changes nothing else (R135). -/
theorem placeTraffic_full {s : State} {l : Line} (f : Frame) (h : Config.trafficCapacity ≤ (s.traffic.get l).length) :
    s.placeTraffic l f = s.count (linePort l) .egressFull := by
  unfold State.placeTraffic; rw [if_neg (by omega)]

/-- A copy that finds a full delivery FIFO is counted TAP_FULL and changes nothing else (R137). -/
theorem placeDelivery_full {s : State} (f : Frame) (h : Config.deliveryCapacity ≤ s.delivery.length) :
    s.placeDelivery f = s.count .tap .egressFull := by
  unfold State.placeDelivery; rw [if_neg (by omega)]

/-- A reply that finds a full reply path is counted REPLY_LOST and changes nothing else (R135, R137). -/
theorem placeReply_lost {s : State} {p : Port} (o : Outgoing) (h : s.replyRoom p = false) :
    s.placeReply p o = s.count p .replyLost := by
  unfold State.placeReply; rw [if_neg (by simp [h])]

/-- A busy transmitter starts nothing (R136). -/
theorem kickLine_busy {s : State} {l : Line} {o : Outgoing} (h : s.lineTx.get l = some o) : s.kickLine l = s := by
  unfold State.kickLine; rw [h]

/-- A busy tap transmitter starts nothing (R137). -/
theorem kickTap_busy {s : State} {o : Outgoing} (h : s.tapTx = some o) : s.kickTap = s := by
  unfold State.kickTap; rw [h]

/-- A fault record that finds room is appended (R119). -/
theorem addFault_room {s : State} (r : FaultRecord) (h : s.faults.length < Config.faultCapacity) :
    s.addFault r = { s with faults := s.faults ++ [r] } := by
  unfold State.addFault; rw [if_pos h]

/-- The reply memory after a stored reply (R156). -/
theorem memory_replyStored (s : State) (o : Origin) (k : ReqKind) (st : Status) (r : List Byte) :
    (s.replyStored o k st r).memory =
      if st.transient then s.memory
      else s.memory.set o.port (some { tag := o.tag, kind := k.code, status := st.code, results := r }) := by
  unfold State.replyStored; split <;> simp

/-- A saturating increment stays in range (R142). -/
theorem saturate_le {n : Nat} (h : n ≤ Config.counterMax) : saturate n ≤ Config.counterMax := by
  unfold saturate; split <;> omega

end Sys2Proof.Machine
end

