-- ==== Sys2Proof/Laws/Work.lean ====
section
/-! SUPPORT. What the operations of the banks and of the erase steps can do, said once: they change the banks, the lookup
stages, the program in progress, the engine's records and the configuration bank, and nothing else. -/

namespace Sys2Proof.Machine

/-- A predicate kept by every change of the banks, the program in progress, the engine's records and the configuration bank,
and by a lookup stage's passing from WAIT_BANK to READING. -/
structure StableBanks (P : State → Prop) : Prop where
  inner : ∀ (s : State) (banks : PerBank BankUnit) (program : Option Program) (op : CurrentOp) (suspended : Option EraseRec)
    (cfgBank : CfgBank), P s →
    P { s with banks := banks, program := program, op := op, suspended := suspended, cfgBank := cfgBank }
  started : ∀ (s : State) (p : Port), P s → P (s.setStage p (s.stages.get p).started)

/-- A predicate kept by every change that `StableBanks` lists and by every change of a lookup stage. -/
structure StableWork (P : State → Prop) : Prop extends StableBanks P where
  stage : ∀ (s : State) (p : Port) (g : Stage), P s → P (s.setStage p g)

namespace StableBanks

variable {P : State → Prop}

theorem setBank (h : StableBanks P) {s : State} (b : Bank) (u : BankUnit) (hs : P s) : P (s.setBank b u) :=
  h.inner s _ _ _ _ _ hs

theorem setOp (h : StableBanks P) {s : State} (x : CurrentOp) (hs : P s) : P { s with op := x } :=
  h.inner s _ _ _ _ _ hs

theorem setSuspended (h : StableBanks P) {s : State} (x : Option EraseRec) (hs : P s) : P { s with suspended := x } :=
  h.inner s _ _ _ _ _ hs

theorem mapErase (h : StableBanks P) {s : State} (f : EraseRec → EraseRec) (hs : P s) : P (s.mapErase f) := by
  unfold State.mapErase
  split
  · exact h.setOp _ hs
  · exact h.setSuspended _ hs

theorem startHead (h : StableBanks P) {s : State} (b : Bank) (hs : P s) : P (s.startHead b) := by
  unfold State.startHead
  split
  · split
    · exact h.started _ _ (h.setBank _ _ hs)
    · exact hs
  · exact hs

theorem grant (h : StableBanks P) {s : State} (b : Bank) (c : Claim) (hs : P s) : P (s.grant b c) := by
  unfold State.grant
  dsimp only
  split
  · exact h.inner s _ _ _ _ _ hs
  · exact h.mapErase _ (h.setBank _ _ hs)
  · exact h.mapErase _ (h.setBank _ _ hs)
  · exact h.setBank _ _ hs

theorem makeClaim (h : StableBanks P) {s : State} (b : Bank) (c : Claim) (hs : P s) : P (s.makeClaim b c) := by
  unfold State.makeClaim
  split
  · exact h.setBank _ _ hs
  · exact h.setBank _ _ hs
  · exact h.setBank _ _ hs
  all_goals
    split
    · exact h.grant _ _ (h.setBank _ _ hs)
    · exact h.startHead _ (h.setBank _ _ hs)

theorem markerDown (h : StableBanks P) {s : State} (b : Bank) (hs : P s) : P (s.markerDown b) := by
  unfold State.markerDown
  dsimp only
  split
  · split
    · exact h.grant _ _ (h.setBank _ _ hs)
    · exact h.setBank _ _ hs
  · exact h.setBank _ _ hs

theorem readDone (h : StableBanks P) {s : State} (b : Bank) (hs : P s) : P (s.readDone b) := by
  unfold State.readDone
  split
  · dsimp only
    split
    · exact h.startHead _ (h.markerDown _ (h.setBank _ _ hs))
    · exact h.startHead _ (h.setBank _ _ hs)
  · exact hs

theorem release (h : StableBanks P) {s : State} (b : Bank) (hs : P s) : P (s.release b) := by
  unfold State.release
  split
  · exact h.startHead _ (h.setBank _ _ hs)
  · split
    · exact h.grant _ _ hs
    · exact h.startHead _ (h.setBank _ _ hs)

theorem releaseErase (h : StableBanks P) {s : State} (b : Bank) (hs : P s) : P (s.releaseErase b) := by
  unfold State.releaseErase
  dsimp only
  split
  · exact h.setBank _ _ hs
  · exact h.setBank _ _ hs
  · exact h.release _ (h.setBank _ _ hs)

theorem withdrawClaim (h : StableBanks P) {s : State} (b : Bank) (hs : P s) : P (s.withdrawClaim b) := by
  unfold State.withdrawClaim
  dsimp only
  split
  · exact h.release _ (h.setBank _ _ hs)
  · exact h.setBank _ _ hs

theorem withdrawRead (h : StableBanks P) {s : State} (p : Port) (b : Bank) (hs : P s) : P (s.withdrawRead p b) := by
  unfold State.withdrawRead
  split
  · dsimp only
    split
    · exact h.startHead _ (h.markerDown _ (h.setBank _ _ hs))
    · exact h.startHead _ (h.setBank _ _ hs)
  · exact hs

theorem claimProgram (h : StableBanks P) {s : State} (p : Program) (hs : P s) : P (s.claimProgram p) := by
  unfold State.claimProgram
  dsimp only
  split
  · exact h.makeClaim _ _ hs
  · split
    · exact h.makeClaim _ _ hs
    · exact h.inner s _ _ _ _ _ hs
  · exact h.inner s _ _ _ _ _ hs
  · exact h.inner s _ _ _ _ _ hs

theorem claimRead (h : StableBanks P) {s : State} (t : ReadTarget) (hs : P s) : P (s.claimRead t) := by
  unfold State.claimRead
  cases t <;>
  · dsimp only
    split
    · exact h.makeClaim _ _ hs
    · exact h.inner s _ _ _ _ _ hs

theorem engineReadDone (h : StableBanks P) {s : State} (t : ReadTarget) (hs : P s) : P (s.engineReadDone t) := by
  unfold State.engineReadDone
  cases t <;>
  · dsimp only
    split
    · exact h.readDone _ hs
    · exact h.inner s _ _ _ _ _ hs

theorem setBatch (h : StableBanks P) {s : State} (b : Batch) (hs : P s) : P (s.setBatch b) := by
  unfold State.setBatch
  split
  · exact h.setOp _ hs
  · exact h.setOp _ hs
  · exact hs

theorem endOp (h : StableBanks P) {s : State} (hs : P s) : P s.endOp :=
  h.setOp _ hs

theorem discardErase (h : StableBanks P) {s : State} (hs : P s) : P s.discardErase := by
  unfold State.discardErase
  split
  · exact h.endOp hs
  · exact h.setSuspended _ hs

theorem freeEraseBank (h : StableBanks P) {s : State} (e : EraseRec) (hs : P s) : P (s.freeEraseBank e) := by
  unfold State.freeEraseBank
  split
  · exact h.withdrawClaim _ hs
  · exact h.releaseErase _ hs

theorem eraseSuspends (h : StableBanks P) {s : State} (e : EraseRec) (hs : P s) : P (s.eraseSuspends e) :=
  h.release _ (h.setBank _ _ (h.mapErase _ hs))

theorem lookAgain (h : StableBanks P) {s : State} (e : EraseRec) (hs : P s) : P (s.lookAgain e) := by
  unfold State.lookAgain
  dsimp only
  split
  · exact h.setBank _ _ (h.mapErase _ hs)
  · exact h.setBank _ _ (h.mapErase _ hs)

theorem reasonAppears (h : StableBanks P) {s : State} (e : EraseRec) (hs : P s) : P (s.reasonAppears e) := by
  unfold State.reasonAppears
  dsimp only
  split
  · exact h.setBank _ _ (h.mapErase _ hs)
  · exact h.lookAgain _ (h.setBank _ _ (h.mapErase _ hs))

theorem examineReasons (h : StableBanks P) {s : State} (hs : P s) : P s.examineReasons := by
  unfold State.examineReasons
  split
  · split
    · exact h.reasonAppears _ hs
    · exact hs
  · exact hs

theorem examineResume (h : StableBanks P) {s : State} (hs : P s) : P s.examineResume := by
  unfold State.examineResume
  split
  · split
    · exact h.makeClaim _ _ hs
    · exact hs
  · exact hs

theorem examineErase (h : StableBanks P) {s : State} (hs : P s) : P s.examineErase :=
  h.examineResume (h.examineReasons hs)

end StableBanks

namespace StableWork

variable {P : State → Prop}

/-- A predicate kept by every change of the fields that the banks and the engine's records occupy. -/
theorem ofWork
    (h : ∀ (s : State) (banks : PerBank BankUnit) (stages : PerPort Stage) (program : Option Program) (op : CurrentOp)
      (suspended : Option EraseRec) (cfgBank : CfgBank), P s →
      P { s with banks := banks, stages := stages, program := program, op := op, suspended := suspended, cfgBank := cfgBank }) :
    StableWork P where
  inner s banks program op suspended cfgBank hs := h s banks s.stages program op suspended cfgBank hs
  started s p hs := h s s.banks (s.stages.set p (s.stages.get p).started) s.program s.op s.suspended s.cfgBank hs
  stage s p g hs := h s s.banks (s.stages.set p g) s.program s.op s.suspended s.cfgBank hs

theorem work (h : StableWork P) (s : State) (banks : PerBank BankUnit) (stages : PerPort Stage) (program : Option Program)
    (op : CurrentOp) (suspended : Option EraseRec) (cfgBank : CfgBank) (hs : P s) :
    P { s with banks := banks, stages := stages, program := program, op := op, suspended := suspended, cfgBank := cfgBank } :=
  h.inner { s with stages := stages } banks program op suspended cfgBank
    (h.stage ((s.setStage .east stages.east).setStage .west stages.west) .tap stages.tap
      (h.stage (s.setStage .east stages.east) .west stages.west (h.stage s .east stages.east hs)))

theorem setStage (h : StableWork P) {s : State} (p : Port) (g : Stage) (hs : P s) : P (s.setStage p g) :=
  h.work s _ _ _ _ _ _ hs

theorem requestRead (h : StableWork P) {s : State} (p : Port) (x : InHand) (a : SlotAddr) (hs : P s) : P (s.requestRead p x a) := by
  unfold State.requestRead
  dsimp only
  split
  · exact h.setStage _ _ (h.setBank _ _ hs)
  · exact h.setStage _ _ (h.setBank _ _ hs)

end StableWork

/-- Two states that differ at most in the banks, the lookup stages, the program in progress, the engine's records and the
configuration bank. -/
def SameOutside (s t : State) : Prop :=
  t = { s with banks := t.banks, stages := t.stages, program := t.program, op := t.op, suspended := t.suspended, cfgBank := t.cfgBank }

theorem SameOutside.refl (s : State) : SameOutside s s := rfl

/-- Every change of the banks and of the engine's records stays within `SameOutside`. -/
theorem sameOutside_stable (s : State) : StableWork (SameOutside s) :=
  StableWork.ofWork (fun x banks stages program op suspended cfgBank hx => by
    unfold SameOutside at hx ⊢
    rw [hx])

theorem SameOutside.resetAsserted {s t : State} (h : SameOutside s t) : t.resetAsserted = s.resetAsserted :=
  (congrArg State.resetAsserted (show t = _ from h) :)
theorem SameOutside.guardRelease {s t : State} (h : SameOutside s t) : t.guardRelease = s.guardRelease :=
  (congrArg State.guardRelease (show t = _ from h) :)
theorem SameOutside.opState {s t : State} (h : SameOutside s t) : t.opState = s.opState :=
  (congrArg State.opState (show t = _ from h) :)
theorem SameOutside.store {s t : State} (h : SameOutside s t) : t.store = s.store :=
  (congrArg State.store (show t = _ from h) :)
theorem SameOutside.index {s t : State} (h : SameOutside s t) : t.index = s.index :=
  (congrArg State.index (show t = _ from h) :)
theorem SameOutside.staging {s t : State} (h : SameOutside s t) : t.staging = s.staging :=
  (congrArg State.staging (show t = _ from h) :)
theorem SameOutside.queue {s t : State} (h : SameOutside s t) : t.queue = s.queue :=
  (congrArg State.queue (show t = _ from h) :)
theorem SameOutside.issue {s t : State} (h : SameOutside s t) : t.issue = s.issue :=
  (congrArg State.issue (show t = _ from h) :)
theorem SameOutside.faults {s t : State} (h : SameOutside s t) : t.faults = s.faults :=
  (congrArg State.faults (show t = _ from h) :)
theorem SameOutside.overflow {s t : State} (h : SameOutside s t) : t.overflow = s.overflow :=
  (congrArg State.overflow (show t = _ from h) :)
theorem SameOutside.segs {s t : State} (h : SameOutside s t) : t.segs = s.segs :=
  (congrArg State.segs (show t = _ from h) :)
theorem SameOutside.ingress {s t : State} (h : SameOutside s t) : t.ingress = s.ingress :=
  (congrArg State.ingress (show t = _ from h) :)
theorem SameOutside.counters {s t : State} (h : SameOutside s t) : t.counters = s.counters :=
  (congrArg State.counters (show t = _ from h) :)
theorem SameOutside.traffic {s t : State} (h : SameOutside s t) : t.traffic = s.traffic :=
  (congrArg State.traffic (show t = _ from h) :)
theorem SameOutside.replies {s t : State} (h : SameOutside s t) : t.replies = s.replies :=
  (congrArg State.replies (show t = _ from h) :)
theorem SameOutside.lineTx {s t : State} (h : SameOutside s t) : t.lineTx = s.lineTx :=
  (congrArg State.lineTx (show t = _ from h) :)
theorem SameOutside.delivery {s t : State} (h : SameOutside s t) : t.delivery = s.delivery :=
  (congrArg State.delivery (show t = _ from h) :)
theorem SameOutside.tapTx {s t : State} (h : SameOutside s t) : t.tapTx = s.tapTx :=
  (congrArg State.tapTx (show t = _ from h) :)
theorem SameOutside.memory {s t : State} (h : SameOutside s t) : t.memory = s.memory :=
  (congrArg State.memory (show t = _ from h) :)
theorem SameOutside.config {s t : State} (h : SameOutside s t) : t.config = s.config :=
  (congrArg State.config (show t = _ from h) :)
theorem SameOutside.pending {s t : State} (h : SameOutside s t) : t.pending = s.pending :=
  (congrArg State.pending (show t = _ from h) :)

/-! ## What each operation of the banks leaves alone -/

theorem sameOutside_mapErase (s : State) (f : EraseRec → EraseRec) : SameOutside s (s.mapErase f) :=
  (sameOutside_stable s).mapErase _ (SameOutside.refl s)

theorem sameOutside_startHead (s : State) (b : Bank) : SameOutside s (s.startHead b) :=
  (sameOutside_stable s).startHead _ (SameOutside.refl s)

theorem sameOutside_grant (s : State) (b : Bank) (c : Claim) : SameOutside s (s.grant b c) :=
  (sameOutside_stable s).grant _ _ (SameOutside.refl s)

theorem sameOutside_makeClaim (s : State) (b : Bank) (c : Claim) : SameOutside s (s.makeClaim b c) :=
  (sameOutside_stable s).makeClaim _ _ (SameOutside.refl s)

theorem sameOutside_readDone (s : State) (b : Bank) : SameOutside s (s.readDone b) :=
  (sameOutside_stable s).readDone _ (SameOutside.refl s)

theorem sameOutside_release (s : State) (b : Bank) : SameOutside s (s.release b) :=
  (sameOutside_stable s).release _ (SameOutside.refl s)

theorem sameOutside_releaseErase (s : State) (b : Bank) : SameOutside s (s.releaseErase b) :=
  (sameOutside_stable s).releaseErase _ (SameOutside.refl s)

theorem sameOutside_withdrawClaim (s : State) (b : Bank) : SameOutside s (s.withdrawClaim b) :=
  (sameOutside_stable s).withdrawClaim _ (SameOutside.refl s)

theorem sameOutside_requestRead (s : State) (p : Port) (x : InHand) (a : SlotAddr) : SameOutside s (s.requestRead p x a) :=
  (sameOutside_stable s).requestRead _ _ _ (SameOutside.refl s)

theorem sameOutside_withdrawRead (s : State) (p : Port) (b : Bank) : SameOutside s (s.withdrawRead p b) :=
  (sameOutside_stable s).withdrawRead _ _ (SameOutside.refl s)

theorem sameOutside_claimProgram (s : State) (p : Program) : SameOutside s (s.claimProgram p) :=
  (sameOutside_stable s).claimProgram _ (SameOutside.refl s)

theorem sameOutside_claimRead (s : State) (x : ReadTarget) : SameOutside s (s.claimRead x) :=
  (sameOutside_stable s).claimRead _ (SameOutside.refl s)

theorem sameOutside_engineReadDone (s : State) (x : ReadTarget) : SameOutside s (s.engineReadDone x) :=
  (sameOutside_stable s).engineReadDone _ (SameOutside.refl s)

theorem sameOutside_setBatch (s : State) (b : Batch) : SameOutside s (s.setBatch b) :=
  (sameOutside_stable s).setBatch _ (SameOutside.refl s)

theorem sameOutside_freeEraseBank (s : State) (e : EraseRec) : SameOutside s (s.freeEraseBank e) :=
  (sameOutside_stable s).freeEraseBank _ (SameOutside.refl s)

theorem sameOutside_eraseSuspends (s : State) (e : EraseRec) : SameOutside s (s.eraseSuspends e) :=
  (sameOutside_stable s).eraseSuspends _ (SameOutside.refl s)

theorem sameOutside_lookAgain (s : State) (e : EraseRec) : SameOutside s (s.lookAgain e) :=
  (sameOutside_stable s).lookAgain _ (SameOutside.refl s)

theorem sameOutside_discardErase (s : State) : SameOutside s (s.discardErase) :=
  (sameOutside_stable s).discardErase (SameOutside.refl s)

theorem sameOutside_examineReasons (s : State) : SameOutside s (s.examineReasons) :=
  (sameOutside_stable s).examineReasons (SameOutside.refl s)

theorem sameOutside_examineErase (s : State) : SameOutside s (s.examineErase) :=
  (sameOutside_stable s).examineErase (SameOutside.refl s)

end Sys2Proof.Machine
end

