-- ==== Sys2Proof/Laws/Stable.lean ====
section
/-! SUPPORT. What one step can do, said once: every operation of the unit is a chain of the updates that `Stable` lists, so a
predicate kept by each of those updates is kept by every operation. -/

namespace Sys2Proof.Machine

/-- A predicate kept by every update that an operation of the engine or of the mount is made of. -/
structure StableEngine (P : State → Prop) : Prop extends StableWork P where
  setSeg : ∀ (s : State) (g : Nat) (v : SegVol), (v.state = some .opened → (s.seg g).state = some .opened) → P s → P (s.setSeg g v)
  allocate : ∀ (s : State) (g : Nat), P s → P (s.allocate g)
  openConfigSegment : ∀ (s : State) (g : CfgSeg), P s → P (s.openConfigSegment g)
  setAllSegments : ∀ (s : State) (m : Mount), P s → P (s.setAllSegments m)
  programmed : ∀ (s : State) (j : Job) (pass : Bool), P s → P { s with store := s.store.programmed j pass }
  erasedCfg : ∀ (s : State) (g : CfgSeg), P s → P { s with store := s.store.erased g.id }
  torn : ∀ (s : State) (g : Nat), P s → P { s with store := s.store.torn g }
  setPosition : ∀ (s : State) (c : Nat) (v : Option SlotAddr), P s → P (s.setPosition c v)
  resolved : ∀ (s : State) (cands : List Candidate) (issue : Option Nat) (config : InForce), P s →
    P { s with index := indexFrom cands, issue := issue, config := config }
  dequeued : ∀ (s : State) (q : List QueuedRequest), q.length ≤ s.queue.length → P s → P { s with queue := q }
  issue : ∀ (s : State) (n : Option Nat), P s → P { s with issue := n }
  addFault : ∀ (s : State) (r : FaultRecord), P s → P (s.addFault r)
  placeReply : ∀ (s : State) (p : Port) (o : Outgoing), P s → P (s.placeReply p o)
  remember : ∀ (s : State) (o : Origin) (kind status : Byte) (results : List Byte), P s → P (s.remember o kind status results)
  config : ∀ (s : State) (c : InForce), P s → P { s with config := c }
  opState : ∀ (s : State) (o : OpState), o.linkUp = true → P s → P { s with opState := o }
  internalReset : ∀ (s : State), P s → P (s.volatileReset .mounting)

/-- A predicate kept by every update that an operation inside the unit is made of. -/
structure Stable (P : State → Prop) : Prop extends StableEngine P where
  unstaged : ∀ (s : State), P s → P { s with staging := Staging.reset }
  staged : ∀ (s : State) (o : Origin) (es : List Entry), s.staging.ownedByOther o.port = false → es ≠ [] →
    firstDuplicate 1 (s.staging.entries.map Entry.channel) es = none →
    s.staging.entries.length + es.length ≤ Config.stagingCapacity → P s →
    P { s with
        staging :=
          { entries := s.staging.entries ++ es
            owner := if s.staging.entries.isEmpty then some o.port else s.staging.owner
            timer := true
            tag := some o.tag } }
  enqueued : ∀ (s : State) (r : QueuedRequest), s.queue.length < Config.queueCapacity → P s →
    P { s with queue := s.queue ++ [r] }
  clearFaults : ∀ (s : State), P s → P { s with faults := [], overflow := 0 }
  count : ∀ (s : State) (p : Port) (c : Counter), P s → P (s.count p c)
  clearCounters : ∀ (s : State) (p : Port), P s → P { s with counters := s.counters.set p Counters.zero }
  placeTraffic : ∀ (s : State) (l : Line) (f : Frame), P s → P (s.placeTraffic l f)
  carryTraffic : ∀ (s : State) (l : Line) (f : Frame), P s → P (s.carryTraffic l f)
  placeDelivery : ∀ (s : State) (f : Frame), P s → P (s.placeDelivery f)
  taken : ∀ (s : State) (p : Port) (f : Frame) (rest : List Frame), s.ingress.get p = f :: rest → P s →
    P { s with ingress := s.ingress.set p rest }

namespace StableEngine

variable {P : State → Prop}

/-! ## Ops -/

theorem setSegState (h : StableEngine P) {s : State} (g : Nat) (x : SegState) (hx : x ≠ .opened) (hs : P s) : P (s.setSegState g x) :=
  h.setSeg _ _ _ (fun e => absurd (Option.some.inj e) hx) hs

theorem setSegFill (h : StableEngine P) {s : State} (g : Nat) (x : SegState) (n : Nat) (hx : x ≠ .opened) (hs : P s) :
    P (s.setSegFill g x n) :=
  h.setSeg _ _ _ (fun e => absurd (Option.some.inj e) hx) hs

theorem bumpFill (h : StableEngine P) {s : State} (g : Nat) (hs : P s) : P (s.bumpFill g) :=
  h.setSeg _ _ _ (fun e => e) hs

theorem bumpErases (h : StableEngine P) {s : State} (g : Nat) (hs : P s) : P (s.bumpErases g) :=
  h.setSeg _ _ _ (fun e => e) hs

theorem setInUse (h : StableEngine P) {s : State} (g n : Nat) (hs : P s) : P (s.setInUse g n) :=
  h.setSeg _ _ _ (fun e => e) hs

theorem emitReply (h : StableEngine P) {s : State} (o : Origin) (k st : Byte) (r : List Byte) (a : Bool) (hs : P s) :
    P (s.emitReply o k st r a) :=
  h.placeReply _ _ _ hs

theorem replyRead (h : StableEngine P) {s : State} (o : Origin) (k : Byte) (st : Status) (r : List Byte) (hs : P s) :
    P (s.replyRead o k st r) :=
  h.emitReply _ _ _ _ _ hs

theorem replyStored (h : StableEngine P) {s : State} (o : Origin) (k : ReqKind) (st : Status) (r : List Byte) (hs : P s) :
    P (s.replyStored o k st r) := by
  unfold State.replyStored
  split
  · exact h.emitReply _ _ _ _ _ hs
  · exact h.emitReply _ _ _ _ _ (h.remember _ _ _ _ _ hs)

theorem replyAwaited (h : StableEngine P) {s : State} (o : Origin) (k : ReqKind) (st : Status) (hs : P s) :
    P (s.replyAwaited o k st) :=
  h.emitReply _ _ _ _ _ (h.remember _ _ _ _ _ hs)

/-! ## Banks -/

theorem countInUse (h : StableEngine P) {s : State} (a : SlotAddr) (w : SlotWrite) (pass : Bool) (hs : P s) :
    P (s.countInUse a w pass) := by
  unfold State.countInUse
  dsimp only
  split
  · split
    · exact h.setInUse _ _ hs
    · exact hs
  · exact hs
  all_goals
    split
    · exact h.setInUse _ _ hs
    · exact hs

theorem releaseProgram (h : StableEngine P) {s : State} (j : Job) (hs : P s) : P (s.releaseProgram j) := by
  unfold State.releaseProgram
  dsimp only
  split
  · exact h.release _ hs
  · split
    · exact h.release _ hs
    · exact h.work s _ _ _ _ _ _ hs
  · exact h.work s _ _ _ _ _ _ hs
  · exact h.work s _ _ _ _ _ _ hs

theorem endProgram (h : StableEngine P) {s : State} (p : Program) (pass : Bool) (hs : P s) : P (s.endProgram p pass) := by
  unfold State.endProgram
  dsimp only
  refine h.releaseProgram _ ?_
  have key : ∀ x : State, P x → P { x with store := x.store.programmed p.job pass, program := none } := fun x hx =>
    h.work _ _ _ none _ _ _ (h.programmed x p.job pass hx)
  split
  · split
    · exact key _ hs
    · exact key _ (h.countInUse _ _ _ hs)
  · exact key _ hs

/-! ## Mount -/

theorem beginMount (h : StableEngine P) {s : State} (hs : P s) : P s.beginMount := by
  unfold State.beginMount
  have h1 : P { s with opState := .mounting } := h.opState s .mounting rfl hs
  exact h.claimRead _ (h.work { s with opState := .mounting } _ _ _ _ _ _ h1)

theorem internalResetOp (h : StableEngine P) {s : State} (hs : P s) : P s.internalReset :=
  h.beginMount (h.internalReset _ hs)

theorem foldSegs (_h : StableEngine P) (f : State → Nat → State) (hf : ∀ x g, P x → P (f x g)) {s : State} (l : List Nat) (hs : P s) :
    P (l.foldl f s) := by
  induction l generalizing s with
  | nil => exact hs
  | cons g l ih => exact ih (hf _ _ hs)

theorem setAllErases (h : StableEngine P) {s : State} (x : List (Option Nat)) (hs : P s) : P (s.setAllErases x) :=
  h.foldSegs (fun acc g => acc.setSeg g { acc.seg g with erases := some (erasesFromHeaders x g) })
    (fun y g hx => h.setSeg y g { y.seg g with erases := some (erasesFromHeaders x g) } (fun e => e) hx) _ hs

theorem enter (h : StableEngine P) {s : State} (m : Mount) (hs : P s) : P (s.enter m) := by
  unfold State.enter
  dsimp only
  have hf := h.foldSegs (fun acc g => acc.setInUse g (m.inUse g)) (fun _ _ hx => h.setInUse _ _ hx)
    (List.range Config.routeSegments) hs
  generalize (List.range Config.routeSegments).foldl (fun acc g => acc.setInUse g (m.inUse g)) s = x at hf ⊢
  exact h.opState { x with op := .idle } _ (by split <;> rfl) (h.work x _ _ _ _ _ _ hf)

theorem nextRepair (h : StableEngine P) {s : State} (m : Mount) (hs : P s) : P (s.nextRepair m) := by
  unfold State.nextRepair
  split
  · exact h.claimProgram _ (h.setOp _ hs)
  · exact h.enter _ hs

theorem resolve (h : StableEngine P) {s : State} (m : Mount) (hs : P s) : P (s.resolve m) :=
  h.nextRepair _ (h.resolved _ _ _ _ (h.setAllSegments _ _ hs))

theorem beginSlotScan (h : StableEngine P) {s : State} (m : Mount) (hs : P s) : P (s.beginSlotScan m) := by
  unfold State.beginSlotScan
  split
  · exact h.claimRead _ (h.setOp _ hs)
  · exact h.resolve _ hs

theorem headerScanned (h : StableEngine P) {s : State} (m : Mount) (r : Option Nat) (hs : P s) : P (s.headerScanned m r) := by
  unfold State.headerScanned
  dsimp only
  split
  · exact h.claimRead _ (h.setOp _ hs)
  · exact h.beginSlotScan _ (h.setAllErases _ hs)

theorem slotScanned (h : StableEngine P) {s : State} (m : Mount) (hs : P s) : P (s.slotScanned m) := by
  unfold State.slotScanned
  split
  · exact h.claimRead _ (h.setOp _ hs)
  · exact h.resolve _ hs

theorem faultSegmentAtMount (h : StableEngine P) {s : State} (g : Nat) (hs : P s) : P (s.faultSegmentAtMount g) := by
  unfold State.faultSegmentAtMount
  split
  · exact h.setSegState _ _ (by decide) hs
  · exact hs

theorem repairFailed (h : StableEngine P) {s : State} (m : Mount) (r : Repair) (rest : List Repair) (hs : P s) :
    P (s.repairFailed m r rest) := by
  unfold State.repairFailed
  dsimp only
  split
  · exact h.nextRepair _ (h.faultSegmentAtMount _ (h.addFault _ _ hs))
  · exact h.nextRepair _ (h.addFault _ _ hs)
  · exact h.nextRepair _ (h.setPosition _ _ _ (h.addFault _ _ hs))

theorem repairDone (h : StableEngine P) {s : State} (pass : Bool) (hs : P s) : P (s.repairDone pass) := by
  unfold State.repairDone
  split
  · split
    · split
      · exact h.nextRepair _ hs
      · exact h.repairFailed _ _ _ hs
    · exact hs
  · exact hs

/-! ## Batches -/

theorem issueSeal (h : StableEngine P) {s : State} (b : Batch) (hs : P s) : P (s.issueSeal b) :=
  h.claimProgram _ (h.bumpFill _ (h.setBatch _ hs))

theorem issueWrite (h : StableEngine P) {s : State} (b : Batch) (k : Nat) (hs : P s) : P (s.issueWrite b k) := by
  unfold State.issueWrite
  split
  · exact h.claimProgram _ (h.bumpFill _ (h.setBatch _ hs))
  · exact h.issueSeal _ hs

theorem allocateFor (h : StableEngine P) {s : State} (pl : Placement) (hs : P s) : P (s.allocateFor pl) := by
  unfold State.allocateFor
  split
  · exact h.allocate _ _ hs
  · exact hs
  · exact hs

theorem beginBatch (h : StableEngine P) {s : State} (o : Origin) (es : List Entry) (pl : Placement) (f : Batch → CurrentOp) (hs : P s) :
    P (s.beginBatch o es pl f) := by
  unfold State.beginBatch
  dsimp only
  have key : ∀ (x : State) (n : Option Nat) (y : CurrentOp), P x → P { x with issue := n, op := y } := fun x n y hx =>
    h.work { x with issue := n } _ _ _ _ _ _ (h.issue x n hx)
  exact h.issueWrite _ _ (key _ _ _ (h.allocateFor _ hs))

theorem startCommit (h : StableEngine P) {s : State} (o : Origin) (es : List Entry) (hs : P s) : P (s.startCommit o es) := by
  unfold State.startCommit
  split
  · exact h.replyStored _ _ _ _ hs
  · split
    · exact h.replyStored _ _ _ _ hs
    · split
      · exact h.replyStored _ _ _ _ hs
      · exact h.beginBatch _ _ _ _ hs

/-! ## Erase -/

theorem replyErase (h : StableEngine P) {s : State} (e : EraseRec) (st : Status) (r : EraseResult) (hs : P s) :
    P (s.replyErase e st r) := by
  unfold State.replyErase
  split
  · exact h.replyStored _ _ _ _ hs
  · exact h.replyStored _ _ _ _ hs

theorem tearSegment (h : StableEngine P) {s : State} (e : EraseRec) (hs : P s) : P (s.tearSegment e) := by
  unfold State.tearSegment Store.cutErase
  split
  · exact h.setSegFill _ _ _ (by decide) (h.torn _ _ hs)
  · exact h.setSegFill _ _ _ (by decide) hs

theorem eraseTimedOut (h : StableEngine P) {s : State} (e : EraseRec) (hs : P s) : P (s.eraseTimedOut e) :=
  h.discardErase (h.replyErase _ _ _ (h.addFault _ _ (h.freeEraseBank _ (h.tearSegment _ hs))))

theorem eraseAbandoned (h : StableEngine P) {s : State} (e : EraseRec) (hs : P s) : P (s.eraseAbandoned e) :=
  h.discardErase (h.replyErase _ _ _ (h.addFault _ _ (h.freeEraseBank _ (h.tearSegment _ hs))))

theorem eraseStopped (h : StableEngine P) {s : State} (c : StopCause) (e : EraseRec) (hs : P s) : P (s.eraseStopped c e) := by
  unfold State.eraseStopped
  split
  · exact h.eraseTimedOut _ hs
  · exact h.eraseAbandoned _ hs

theorem beginErase (h : StableEngine P) {s : State} (g : Nat) (o : Origin) (t : Option Tallies) (hs : P s) : P (s.beginErase g o t) :=
  h.makeClaim _ _ (h.setOp _ (h.setSegState _ _ (by decide) hs))

theorem checkErase (h : StableEngine P) {s : State} (g : Nat) (o : Origin) (t : Option Tallies) (hs : P s) : P (s.checkErase g o t) := by
  unfold State.checkErase
  dsimp only
  split
  · exact h.endOp (h.replyErase _ _ _ hs)
  · split
    · exact h.endOp (h.replyErase _ _ _ hs)
    · exact h.beginErase _ _ _ hs

/-- The completion of a route erase: the one update of the engine that returns route slots to BLANK. -/
theorem eraseCompleted (h : StableEngine P) (erased : ∀ (s : State) (g : Nat), P s → P { s with store := s.store.erased g })
    {s : State} (e : EraseRec) (hs : P s) : P (s.eraseCompleted e) := by
  have h1 := erased (s.bumpErases e.seg) e.seg (h.bumpErases _ hs)
  unfold State.eraseCompleted
  dsimp only
  refine h.claimProgram _ (h.release _ (h.mapErase _ ?_))
  exact h1

theorem stampDone (h : StableEngine P) {s : State} (pass : Bool) (e : EraseRec) (hs : P s) : P (s.stampDone pass e) := by
  unfold State.stampDone
  dsimp only
  split
  · exact h.discardErase (h.replyErase _ _ _ (h.setInUse _ _ (h.setSegFill _ _ _ (by decide) hs)))
  · exact h.discardErase (h.replyErase _ _ _ (h.addFault _ _ (h.setSegFill _ _ _ (by decide) hs)))

/-! ## Reclaim -/

theorem relocateNext (h : StableEngine P) {s : State} (r : ReclaimRec) (hs : P s) : P (s.relocateNext r) := by
  unfold State.relocateNext
  split
  · exact h.checkErase _ _ _ hs
  · exact h.claimRead _ (h.setOp _ hs)

theorem endReclaim (h : StableEngine P) {s : State} (r : ReclaimRec) (st : Status) (x : ReclaimResult) (hs : P s) :
    P (s.endReclaim r st x) :=
  h.endOp (h.replyStored _ _ _ _ hs)

theorem startReclaim (h : StableEngine P) {s : State} (o : Origin) (g : Nat) (hs : P s) : P (s.startReclaim o g) := by
  unfold State.startReclaim
  dsimp only
  split
  · exact h.relocateNext _ (h.setSegState _ _ (by decide) hs)
  · exact h.relocateNext _ hs
  · exact h.relocateNext _ hs
  · exact h.replyStored _ _ _ _ hs

theorem startRelocation (h : StableEngine P) {s : State} (r : ReclaimRec) (es : List Entry) (hs : P s) : P (s.startRelocation r es) := by
  unfold State.startRelocation
  split
  · exact h.endReclaim _ _ _ hs
  · split
    · exact h.endReclaim _ _ _ hs
    · exact h.beginBatch _ _ _ _ hs

theorem sourceRead (h : StableEngine P) {s : State} (r : ReclaimRec) (x : Source) (rest : List Source) (es : List Entry) (res : ReadResult)
    (hs : P s) : P (s.sourceRead r x rest es res) := by
  unfold State.sourceRead
  dsimp only
  have key : ∀ (r1 : ReclaimRec) (imgs : List Entry),
      P (if r1.abandoned = true then s.endReclaim r1 .abandoned { seg := r1.seg }
        else
          match rest with
          | y :: ys =>
            ({ s with op := .reclaim { r1 with stage := .reading (y :: ys) imgs } } : State).claimRead
              (.slot { seg := r1.seg, slot := y.slot })
          | [] => if imgs.isEmpty = true then s.relocateNext r1 else s.startRelocation r1 imgs) := by
    intro r1 imgs
    split
    · exact h.endReclaim _ _ _ hs
    · split
      · exact h.claimRead _ (h.setOp _ hs)
      · split
        · exact h.relocateNext _ hs
        · exact h.startRelocation _ _ hs
  exact key _ _

theorem batchSettled (h : StableEngine P) {s : State} (b : Batch) (hs : P s) : P (s.batchSettled b) := by
  unfold State.batchSettled
  split
  · dsimp only
    split
    · exact h.endReclaim _ _ _ hs
    · exact h.relocateNext _ hs
  · dsimp only
    split
    · exact h.endOp (h.replyStored _ _ _ _ hs)
    · exact h.endOp (h.replyStored _ _ _ _ hs)

theorem batchVoided (h : StableEngine P) {s : State} (b : Batch) (n : Nat) (c : Option Nat) (hs : P s) : P (s.batchVoided b n c) := by
  unfold State.batchVoided
  split
  · exact h.endReclaim _ _ _ hs
  · dsimp only
    split
    · exact h.endOp (h.replyStored _ _ _ _ hs)
    · exact h.endOp (h.replyStored _ _ _ _ hs)

theorem issueVoid (h : StableEngine P) {s : State} (b : Batch) (n : Nat) (c : Option Nat) (l : List VoidTarget) (hs : P s) :
    P (s.issueVoid b n c l) := by
  unfold State.issueVoid
  split
  · exact h.claimProgram _ (h.setBatch _ hs)
  · exact h.batchVoided _ _ _ hs

theorem issueSettle (h : StableEngine P) {s : State} (b : Batch) (k : Nat) (st : SettleStep) (hs : P s) : P (s.issueSettle b k st) :=
  h.claimProgram _ (h.setBatch _ hs)

theorem settleEntry (h : StableEngine P) {s : State} (b : Batch) (k : Nat) (hs : P s) : P (s.settleEntry b k) := by
  unfold State.settleEntry
  split
  · split
    · exact h.issueSettle _ _ _ hs
    · exact h.issueSettle _ _ _ hs
    · exact h.issueSettle _ _ _ hs
  · exact h.batchSettled _ hs

theorem settleAfter (h : StableEngine P) {s : State} (b : Batch) (k : Nat) (st : SettleStep) (hs : P s) : P (s.settleAfter b k st) := by
  unfold State.settleAfter
  split
  · split
    · exact h.issueSettle _ _ _ hs
    · exact h.settleEntry _ _ hs
  · split
    · exact h.issueSettle _ _ _ hs
    · exact h.settleEntry _ _ hs
  · split
    · exact h.issueSettle _ _ _ hs
    · exact h.settleEntry _ _ hs
  · exact h.settleEntry _ _ hs
  · exact h.settleEntry _ _ hs

theorem settleFailed (h : StableEngine P) {s : State} (b : Batch) (k : Nat) (st : SettleStep) (hs : P s) : P (s.settleFailed b k st) := by
  unfold State.settleFailed
  dsimp only
  split
  · exact h.issueSettle _ _ _ (h.addFault _ _ (h.setPosition _ _ _ hs))
  · exact h.issueSettle _ _ _ (h.addFault _ _ hs)
  · exact h.issueSettle _ _ _ (h.addFault _ _ hs)

theorem faultSegment (h : StableEngine P) {s : State} (g : Nat) (hs : P s) : P (s.faultSegment g) := by
  unfold State.faultSegment
  split
  · exact h.setSegState _ _ (by decide) hs
  · exact hs

theorem switchIndex (h : StableEngine P) {s : State} (b : Batch) (hs : P s) : P (s.switchIndex b) := by
  unfold State.switchIndex
  generalize b.entries.zipIdx = l
  induction l generalizing s with
  | nil => exact hs
  | cons x l ih => exact ih (h.setPosition _ _ _ hs)

theorem writeDone (h : StableEngine P) {s : State} (pass : Bool) (hs : P s) : P (s.writeDone pass) := by
  unfold State.writeDone
  split
  · split
    · split
      · exact h.issueWrite _ _ hs
      · exact h.issueVoid _ _ _ _ (h.addFault _ _ hs)
    · exact hs
  · exact hs

theorem sealDone (h : StableEngine P) {s : State} (pass : Bool) (hs : P s) : P (s.sealDone pass) := by
  unfold State.sealDone
  split
  · split
    · split
      · exact h.settleEntry _ _ (h.switchIndex _ hs)
      · exact h.issueVoid _ _ _ _ (h.addFault _ _ hs)
    · exact hs
  · exact hs

theorem settleDone (h : StableEngine P) {s : State} (pass : Bool) (hs : P s) : P (s.settleDone pass) := by
  unfold State.settleDone
  split
  · split
    · split
      · exact h.settleAfter _ _ _ hs
      · exact h.settleFailed _ _ _ hs
    · exact hs
  · exact hs

theorem voidDone (h : StableEngine P) {s : State} (pass : Bool) (hs : P s) : P (s.voidDone pass) := by
  unfold State.voidDone
  split
  · split
    · split
      · exact h.issueVoid _ _ _ _ hs
      · exact h.issueVoid _ _ _ _ (h.faultSegment _ (h.addFault _ _ hs))
    · split
      · exact h.settleAfter _ _ _ hs
      · exact h.settleAfter _ _ _ (h.faultSegment _ (h.addFault _ _ hs))
    · exact hs
  · exact hs

/-! ## Configuration writes -/

theorem endConfig (h : StableEngine P) {s : State} (o : Origin) (st : Status) (x : SetConfigResult) (hs : P s) : P (s.endConfig o st x) :=
  h.endOp (h.replyStored _ _ _ _ hs)

theorem beginConfigWrite (h : StableEngine P) {s : State} (w : ConfigWrite) (hs : P s) : P (s.beginConfigWrite w) := by
  unfold State.beginConfigWrite
  split
  · dsimp only
    have key : ∀ (x : State) (n : Option Nat) (y : CurrentOp), P x → P { x with issue := n, op := y } := fun x n y hx =>
      h.work { x with issue := n } _ _ _ _ _ _ (h.issue x n hx)
    exact h.claimProgram _ (key _ _ _ (h.bumpFill _ hs))
  · exact hs

theorem rotate (h : StableEngine P) {s : State} (w : ConfigWrite) (hs : P s) : P (s.rotate w) := by
  unfold State.rotate
  have key : ∀ room : Bool,
      P (if room = true then s.beginConfigWrite w
        else
          match s.leastWorn (s.rotationCandidates.filter (fun g => s.segIs g.id .clean)) with
          | some g => (s.openConfigSegment g).beginConfigWrite w
          | none =>
            match s.rotationTarget s.rotationCandidates with
            | some g =>
              if s.worn g.id = true then s.endConfig w.origin .worn { seg := some g.id, erases := some (s.erasesOf g.id) }
              else
                { s.setSegFill g.id .torn 0 with
                  cfgBank := { s.cfgBank with state := .eraseRunning }
                  op := .configWrite { w with step := .erasing, target := some g, rotated := true } }
            | none => s) := by
    intro room
    split
    · exact h.beginConfigWrite _ hs
    · split
      · exact h.beginConfigWrite _ (h.openConfigSegment _ _ hs)
      · split
        · split
          · exact h.endConfig _ _ _ hs
          · exact h.work (s.setSegFill _ .torn 0) _ _ _ _ _ _ (h.setSegFill _ _ _ (by decide) hs)
        · exact hs
  exact key _

theorem startSetConfig (h : StableEngine P) {s : State} (o : Origin) (i : ConfigImage) (hs : P s) : P (s.startSetConfig o i) := by
  unfold State.startSetConfig
  split
  · exact h.endConfig _ _ _ hs
  · split
    · exact h.endConfig _ _ _ hs
    · split
      · exact h.endConfig _ _ _ hs
      · exact h.rotate _ hs

theorem configErased (h : StableEngine P) {s : State} (w : ConfigWrite) (g : CfgSeg) (hs : P s) : P (s.configErased w g) := by
  have h1 := h.erasedCfg (s.bumpErases g.id) g (h.bumpErases _ hs)
  unfold State.configErased
  dsimp only
  refine h.claimProgram _ ?_
  exact h.work { s.bumpErases g.id with store := (s.bumpErases g.id).store.erased g.id } _ _ _ _ _ _ h1

theorem rotationFailed (h : StableEngine P) {s : State} (w : ConfigWrite) (g : CfgSeg) (c : FailureCause) (hs : P s) :
    P (s.rotationFailed w g c) :=
  h.endConfig _ _ _ (h.addFault _ _ hs)

theorem configStampDone (h : StableEngine P) {s : State} (pass : Bool) (w : ConfigWrite) (g : CfgSeg) (hs : P s) :
    P (s.configStampDone pass w g) := by
  unfold State.configStampDone
  split
  · exact h.beginConfigWrite _ (h.openConfigSegment _ _ hs)
  · exact h.rotationFailed _ _ _ hs

theorem configStopped (h : StableEngine P) {s : State} (w : ConfigWrite) (g : CfgSeg) (hs : P s) : P (s.configStopped w g) :=
  h.rotationFailed _ _ _ (h.work { s with store := s.store.torn g.id } _ _ _ _ _ _ (h.torn s g.id hs))

theorem configWriteDone (h : StableEngine P) {s : State} (pass : Bool) (w : ConfigWrite) (a : SlotAddr) (n : Nat) (hs : P s) :
    P (s.configWriteDone pass w a n) := by
  unfold State.configWriteDone
  split
  · exact h.endConfig _ _ _ (h.config _ _ hs)
  · exact h.claimProgram _ (h.setOp _ (h.addFault _ _ hs))

theorem configVoidDone (h : StableEngine P) {s : State} (pass : Bool) (w : ConfigWrite) (a : SlotAddr) (n : Nat) (hs : P s) :
    P (s.configVoidDone pass w a n) := by
  unfold State.configVoidDone
  dsimp only
  split
  · exact h.endConfig _ _ _ hs
  · exact h.endConfig _ _ _ (h.addFault _ _ hs)

/-! ## Restart and the start rule -/

theorem cancelAll (h : StableEngine P) {s : State} (qs : List QueuedRequest) (n : Nat) (hs : P s) : P (State.cancelAll qs n s).1 := by
  induction qs generalizing n s with
  | nil => exact hs
  | cons q qs ih => exact ih _ (h.replyAwaited _ _ _ hs)

theorem startRestart (h : StableEngine P) {s : State} (o : Origin) (hs : P s) : P (s.startRestart o) := by
  unfold State.startRestart
  have hq : P { s with queue := [] } := h.dequeued _ _ (Nat.zero_le _) hs
  have hc := h.cancelAll s.queue 0 hq
  generalize State.cancelAll s.queue 0 { s with queue := [] } = x at hc
  obtain ⟨s1, n⟩ := x
  dsimp only at hc ⊢
  have h2 := h.replyAwaited o .restart .done hc
  generalize (if s1.replyRoom o.port = true then n + 1 else n) = n1
  by_cases e : n1 = 0
  · rw [if_pos e]; exact h.internalResetOp h2
  · rw [if_neg e]; exact h.setOp _ h2

theorem awaitedSent (h : StableEngine P) {s : State} (hs : P s) : P s.awaitedSent := by
  unfold State.awaitedSent
  split
  · split
    · exact h.internalResetOp hs
    · exact h.setOp _ hs
  · exact hs

theorem startRequest (h : StableEngine P) {s : State} (q : QueuedRequest) (hs : P s) : P (s.startRequest q) := by
  unfold State.startRequest
  split
  · exact h.startCommit _ _ hs
  · exact h.checkErase _ _ _ hs
  · exact h.startReclaim _ _ hs
  · exact h.startSetConfig _ _ hs
  · exact h.startRestart _ hs

theorem dropHead (h : StableEngine P) {s : State} {q : QueuedRequest} {qs : List QueuedRequest} (e : s.queue = q :: qs) (hs : P s) :
    P { s with queue := qs } :=
  h.dequeued _ _ (by rw [e]; exact Nat.le_succ _) hs

theorem runStart (h : StableEngine P) (n : Nat) {s : State} (hs : P s) : P (State.runStart n s) := by
  induction n generalizing s with
  | zero => exact hs
  | succ n ih =>
    unfold State.runStart
    split
    · split
      · split
        · exact hs
        · rename_i e; exact ih (h.startRequest _ (h.dropHead e hs))
      · split
        · rename_i e
          split
          · exact ih (h.startRequest _ (h.dropHead e hs))
          · exact h.work s _ _ _ _ _ _ hs
        · exact h.work s _ _ _ _ _ _ hs
    · split
      · rename_i e1 e
        split
        · exact ih (h.startRequest _ (h.work _ _ _ _ _ _ _ (h.dropHead e hs)))
        · exact hs
      · exact hs
    · exact hs

theorem engineNext (h : StableEngine P) {s : State} (hs : P s) : P s.engineNext :=
  h.runStart _ hs

end StableEngine

namespace Stable

variable {P : State → Prop}

theorem offer (h : Stable P) {s : State} (o : Origin) (k : QueuedKind) (hs : P s) : P (s.offer o k) := by
  unfold State.offer
  split
  · exact h.replyStored _ _ _ _ hs
  · split
    · exact h.replyStored _ _ _ _ hs
    · rename_i hn
      have hlt : s.queue.length < Config.queueCapacity := Nat.lt_of_not_le hn
      have hq := h.enqueued s { origin := o, kind := k } hlt hs
      split
      · rename_i he
        have e : s.queue = [] := List.isEmpty_iff.1 he
        rw [e] at hq
        exact h.engineNext hq
      · exact hq

/-! ## Requests -/

theorem startReadSlot (h : Stable P) {s : State} (o : Origin) (a : SlotAddr) (hs : P s) : P (s.startReadSlot o a) := by
  unfold State.startReadSlot
  dsimp only
  split
  · exact h.setBank _ _ hs
  · exact h.replyRead _ _ _ _ hs

theorem doReadSlot (h : Stable P) {s : State} (o : Origin) (ps : List Byte) (hs : P s) : P (s.doReadSlot o ps) := by
  unfold State.doReadSlot
  split
  · split
    · exact h.startReadSlot _ _ hs
    · exact h.replyRead _ _ _ _ hs
  · exact h.replyRead _ _ _ _ hs

theorem doReadIndex (h : Stable P) {s : State} (o : Origin) (ps : List Byte) (hs : P s) : P (s.doReadIndex o ps) := by
  unfold State.doReadIndex
  split
  · dsimp only
    split
    · exact h.replyRead _ _ _ _ hs
    · exact h.replyRead _ _ _ _ hs
  · exact h.replyRead _ _ _ _ hs

theorem doReadCounters (h : Stable P) {s : State} (o : Origin) (ps : List Byte) (hs : P s) : P (s.doReadCounters o ps) := by
  unfold State.doReadCounters
  split
  · split
    · split
      · exact h.replyRead _ _ _ _ hs
      · exact h.replyRead _ _ _ _ hs
    · exact h.replyRead _ _ _ _ hs
  · exact h.replyRead _ _ _ _ hs

theorem doClearCounters (h : Stable P) {s : State} (o : Origin) (b : Byte) (hs : P s) : P (s.doClearCounters o b) := by
  unfold State.doClearCounters
  split
  · exact h.replyStored _ _ _ _ (h.clearCounters _ _ hs)
  · exact h.replyStored _ _ _ _ hs

theorem entriesOf_length : ∀ (images : List (List Byte)) (pos : Nat) (es : List Entry), entriesOf pos images = .ok es →
    es.length = images.length := by
  intro images
  induction images with
  | nil => intro pos es he; simp only [entriesOf, Except.ok.injEq] at he; subst he; rfl
  | cons img rest ih =>
    intro pos es he
    unfold entriesOf at he
    split at he
    · cases he
    · split at he
      · rename_i e hr
        simp only [Except.ok.injEq] at he
        subst he
        simp [ih _ _ hr]
      · cases he

theorem imagesOf_length (n : Nat) (bytes : List Byte) : (imagesOf n bytes).length = n := by
  induction n generalizing bytes with
  | zero => rfl
  | succ n ih => simp [imagesOf, ih]

theorem stageImages (h : Stable P) {s : State} (o : Origin) (images : List (List Byte)) (hi : images ≠ []) (hs : P s) :
    P (s.stageImages o images) := by
  unfold State.stageImages
  split
  · exact h.replyStored _ _ _ _ hs
  · rename_i ho
    split
    · exact h.replyStored _ _ _ _ hs
    · rename_i es he
      split
      · exact h.replyStored _ _ _ _ hs
      · rename_i hd
        split
        · exact h.replyStored _ _ _ _ hs
        · rename_i hl
          have hne : es ≠ [] := by
            intro e
            have := entriesOf_length _ _ _ he
            rw [e] at this
            exact hi (List.length_eq_zero_iff.1 this.symm)
          exact h.replyStored _ _ _ _
            (h.staged s o es (by simpa using ho) hne hd (by omega) hs)

theorem doStage (h : Stable P) {s : State} (o : Origin) (ps : List Byte) (hs : P s) : P (s.doStage o ps) := by
  unfold State.doStage
  split
  · split
    · exact h.replyStored _ _ _ _ hs
    · rename_i n rest hn
      refine h.stageImages _ _ ?_ hs
      intro e
      have := imagesOf_length n.toNat rest
      rw [e] at this
      exact hn (Or.inl this.symm)
  · exact h.replyStored _ _ _ _ hs

theorem doUnstage (h : Stable P) {s : State} (o : Origin) (hs : P s) : P (s.doUnstage o) := by
  unfold State.doUnstage
  split
  · exact h.replyStored _ _ _ _ hs
  · exact h.replyStored _ _ _ _ (h.unstaged _ hs)

theorem answerAbandon (h : Stable P) {s : State} (o : Origin) (st : Status) (hs : P s) : P (s.answerAbandon o st) :=
  h.replyStored _ _ _ _ hs

theorem abandonErase (h : Stable P) {s : State} (o : Origin) (e : EraseRec) (hs : P s) : P (s.abandonErase o e) := by
  unfold State.abandonErase
  split
  · exact h.engineNext (h.answerAbandon _ _ (h.eraseAbandoned _ hs))
  · exact h.engineNext (h.answerAbandon _ _ (h.eraseAbandoned _ hs))
  · exact h.answerAbandon _ _ (h.mapErase _ hs)
  · exact h.answerAbandon _ _ (h.mapErase _ hs)
  · exact h.answerAbandon _ _ (h.mapErase _ hs)
  · exact h.answerAbandon _ _ hs
  · exact h.answerAbandon _ _ hs
  · exact h.answerAbandon _ _ hs

theorem abandonCurrent (h : Stable P) {s : State} (o : Origin) (hs : P s) : P (s.abandonCurrent o) := by
  unfold State.abandonCurrent
  split
  · exact h.abandonErase _ _ hs
  · exact h.answerAbandon _ _ (h.setOp _ hs)
  all_goals exact h.answerAbandon _ _ hs

theorem abandonQueued (h : Stable P) {s : State} (o : Origin) (q : QueuedRequest) (hs : P s) : P (s.abandonQueued o q) := by
  unfold State.abandonQueued
  dsimp only
  have h1 : P { s with queue := s.queue.filter (fun x => x.origin ≠ q.origin) } :=
    h.dequeued _ _ (List.length_filter_le _ _) hs
  have h2 := h.answerAbandon o .done (h.replyStored q.origin q.kind.reqKind .cancelled [] h1)
  split
  · exact h.engineNext h2
  · exact h2

theorem doAbandon (h : Stable P) {s : State} (o : Origin) (ps : List Byte) (hs : P s) : P (s.doAbandon o ps) := by
  unfold State.doAbandon
  split
  · unfold State.abandonTarget
    split
    · exact h.abandonQueued _ _ hs
    · split
      · exact h.abandonCurrent _ hs
      · split
        · split
          · exact h.abandonErase _ _ hs
          · exact h.answerAbandon _ _ hs
        · exact h.answerAbandon _ _ hs
  · exact h.replyStored _ _ _ _ hs

theorem repeatFrame (h : Stable P) {s : State} (p : Port) (f : Frame) (hs : P s) : P (s.repeatFrame p f) := by
  unfold State.repeatFrame
  split
  · exact h.count _ _ _ (h.placeTraffic _ _ _ hs)
  · exact h.count _ _ _ hs

theorem stageLeavesRunning (h : Stable P) {s : State} (p : Port) (hs : P s) : P (s.stageLeavesRunning p) := by
  unfold State.stageLeavesRunning
  split
  · exact h.repeatFrame _ _ (h.withdrawRead _ _ (h.setStage _ _ hs))
  · exact h.setStage _ _ hs
  · exact hs

theorem setMode (h : Stable P) {s : State} (m : Mode) (hs : P s) : P (s.setMode m) := by
  unfold State.setMode
  split
  · exact h.opState _ _ rfl hs
  · split
    · exact h.stageLeavesRunning _ (h.stageLeavesRunning _ (h.stageLeavesRunning _ (h.opState _ _ rfl hs)))
    · exact h.opState _ _ rfl hs

theorem doSetMode (h : Stable P) {s : State} (o : Origin) (ps : List Byte) (hs : P s) : P (s.doSetMode o ps) := by
  unfold State.doSetMode
  split
  · split
    · exact h.replyStored _ _ _ _ (h.setMode _ hs)
    · exact h.replyStored _ _ _ _ hs
  · exact h.replyStored _ _ _ _ hs

theorem doCommit (h : Stable P) {s : State} (o : Origin) (hs : P s) : P (s.doCommit o) := by
  unfold State.doCommit
  split
  · exact h.replyStored _ _ _ _ hs
  · split
    · exact h.replyStored _ _ _ _ hs
    · split
      · exact h.replyStored _ _ _ _ hs
      · split
        · exact h.replyStored _ _ _ _ hs
        · exact h.offer _ _ (h.unstaged _ hs)

theorem doErase (h : Stable P) {s : State} (o : Origin) (ps : List Byte) (hs : P s) : P (s.doErase o ps) := by
  unfold State.doErase
  split
  · split
    · exact h.offer _ _ hs
    · exact h.replyStored _ _ _ _ hs
  · exact h.replyStored _ _ _ _ hs

theorem doReclaim (h : Stable P) {s : State} (o : Origin) (ps : List Byte) (hs : P s) : P (s.doReclaim o ps) := by
  unfold State.doReclaim
  split
  · split
    · exact h.offer _ _ hs
    · exact h.replyStored _ _ _ _ hs
  · exact h.replyStored _ _ _ _ hs

theorem doSetConfig (h : Stable P) {s : State} (o : Origin) (ps : List Byte) (hs : P s) : P (s.doSetConfig o ps) := by
  unfold State.doSetConfig
  split
  · exact h.offer _ _ hs
  · exact h.replyStored _ _ _ _ hs

theorem perform (h : Stable P) {s : State} (k : ReqKind) (o : Origin) (ps : List Byte) (hs : P s) : P (s.perform k o ps) := by
  unfold State.perform
  split
  · exact h.replyRead _ _ _ _ hs
  · exact h.replyRead _ _ _ _ hs
  · exact h.doReadSlot _ _ hs
  · exact h.doReadIndex _ _ hs
  · split
    · split
      · exact h.doClearCounters _ _ hs
      · exact h.doReadCounters _ _ hs
    · exact h.doReadCounters _ _ hs
  · exact h.replyRead _ _ _ _ hs
  · exact h.replyRead _ _ _ _ hs
  · exact h.replyStored _ _ _ _ (h.clearFaults _ hs)
  · exact h.doStage _ _ hs
  · exact h.doUnstage _ hs
  · exact h.doAbandon _ _ hs
  · exact h.doSetMode _ _ hs
  · exact h.doCommit _ hs
  · exact h.doErase _ _ hs
  · exact h.doReclaim _ _ hs
  · exact h.doSetConfig _ _ hs
  · exact h.offer _ _ hs

theorem dispatch (h : Stable P) {s : State} (r : Request) (hs : P s) : P (s.dispatch r) := by
  unfold State.dispatch
  split
  · exact h.replyRead _ _ _ _ hs
  · split
    · exact h.replyRead _ _ _ _ hs
    · split
      · unfold State.screenKnown
        split
        · split
          · exact h.emitReply _ _ _ _ _ hs
          · split
            · exact h.perform _ _ _ hs
            · exact h.replyStored _ _ _ _ hs
        · split
          · exact h.perform _ _ _ hs
          · exact h.replyRead _ _ _ _ hs
      · exact h.replyRead _ _ _ _ hs

/-! ## Forwarding -/

theorem handOff (h : Stable P) {s : State} (p : Port) (f : Frame) (c : Counter) (hs : P s) : P (s.handOff p f c) := by
  unfold State.handOff
  dsimp only
  split
  · unfold State.passManagement
    split
    · exact h.count _ _ _ (h.placeTraffic _ _ _ hs)
    · exact h.count _ _ _ hs
  · exact h.dispatch _ (h.count _ _ _ hs)
  · unfold State.passOn
    split
    · exact h.placeTraffic _ _ _ (h.dispatch _ (h.count _ _ _ hs))
    · exact h.dispatch _ (h.count _ _ _ hs)

theorem noRoute (h : Stable P) {s : State} (p : Port) (f : Frame) (hs : P s) : P (s.noRoute p f) := by
  unfold State.noRoute
  split
  · exact h.count _ _ _ (h.placeDelivery _ _ hs)
  · exact h.count _ _ _ hs

theorem judgeFrame (h : Stable P) {s : State} (p : Port) (f : Frame) (hs : P s) : P (s.judgeFrame p f) := by
  unfold State.judgeFrame
  split
  · exact h.count _ _ _ hs
  · split
    · exact h.count _ _ _ hs
    · split
      · exact h.handOff _ _ _ hs
      · unfold State.lookUp
        split
        · exact h.noRoute _ _ hs
        · exact h.requestRead _ _ _ hs

theorem passCopy (h : Stable P) {s : State} (p : Port) (r : RouteFields) (f : Frame) (hs : P s) : P (s.passCopy p r f) := by
  unfold State.passCopy
  split
  · exact h.count _ _ _ (h.placeTraffic _ _ _ hs)
  · exact hs

theorem deliverCopy (h : Stable P) {s : State} (p : Port) (r : RouteFields) (f : Frame) (hs : P s) : P (s.deliverCopy p r f) :=
  h.count _ _ _ (h.placeDelivery _ _ hs)

theorem applyAction (h : Stable P) {s : State} (p : Port) (r : RouteFields) (f : Frame) (left : Bool) (hs : P s) :
    P (s.applyAction p r f left) := by
  unfold State.applyAction
  split
  · exact h.passCopy _ _ _ hs
  · split
    · exact h.count _ _ _ hs
    · split
      · exact h.repeatFrame _ _ hs
      · exact h.deliverCopy _ _ _ hs
  · split
    · exact h.passCopy _ _ _ hs
    · split
      · exact h.passCopy _ _ _ hs
      · exact h.deliverCopy _ _ _ (h.passCopy _ _ _ hs)
  · exact h.count _ _ _ hs

theorem frameRead (h : Stable P) {s : State} (p : Port) (x : InHand) (res : ReadResult) (hs : P s) : P (s.frameRead p x res) := by
  unfold State.frameRead
  split
  · split
    · exact h.applyAction _ _ _ _ hs
    · exact h.count _ _ _ hs
  · split
    · exact h.repeatFrame _ _ hs
    · unfold State.steer
      split
      · exact h.count _ _ _ hs
      · split
        · exact h.noRoute _ _ hs
        · split
          · exact h.count _ _ _ hs
          · exact h.requestRead _ _ _ hs

theorem bypassFrame (h : Stable P) {s : State} (p : Port) (f : Frame) (hs : P s) : P (s.bypassFrame p f) := by
  unfold State.bypassFrame
  split
  · exact h.handOff _ _ _ hs
  · exact h.repeatFrame _ _ hs

theorem takeHead (h : Stable P) {s : State} (p : Port) (hs : P s) : P (s.takeHead p) := by
  unfold State.takeHead
  split
  · exact hs
  · rename_i f rest e
    have h1 := h.taken s p f rest e hs
    dsimp only
    split
    · exact h1
    · unfold State.carryAcross
      split
      · exact h.carryTraffic _ _ _ h1
      · exact h1
    · exact h.bypassFrame _ _ h1
    · exact h.bypassFrame _ _ h1
    · exact h.judgeFrame _ _ h1

theorem takeHeads (h : Stable P) (n : Nat) {s : State} (hs : P s) : P (State.takeHeads n s) := by
  induction n generalizing s with
  | zero => exact hs
  | succ n ih =>
    unfold State.takeHeads
    split
    · exact ih (h.takeHead _ (h.examineReasons hs))
    · exact hs

theorem settle (h : Stable P) {s : State} (hs : P s) : P s.settle :=
  h.examineErase (h.takeHeads _ hs)

end Stable

end Sys2Proof.Machine
end

