-- ==== Sys2Proof/Laws/Step.lean ====
section
/-! SUPPORT. Every command keeps what each update of `StableInside` and `StableCommands` keeps. -/

namespace Sys2Proof.Machine

/-- The commands of the supply and of the RESET input. -/
def isSupplyCommand : Instr → Bool
  | .powerOn | .lossOfPower | .resetAssertion | .resetRelease => true
  | _ => false

/-- A predicate kept by every update that a command other than those of the supply and RESET is made of. -/
structure StableInside (P : State → Prop) : Prop extends Stable P where
  arrived : ∀ (s : State) (p : Port) (f : Frame), s.ingressRoom p = true → P s → P (s.appendIngress p f)
  lineSent : ∀ (s : State) (l : Line), P s → P (({ s with lineTx := s.lineTx.set l none } : State).kickLine l)
  tapSent : ∀ (s : State), P s → P ({ s with tapTx := none } : State).kickTap
  guardLevel : ∀ (s : State) (b : Bool), P s → P { s with guardRelease := b }

/-- A predicate kept by every update that any command is made of. -/
structure StableCommands (P : State → Prop) : Prop extends StableInside P where
  reset : ∀ (s : State) (o : OpState), P s → P (s.volatileReset o)
  resetLevel : ∀ (s : State) (b : Bool), P s → P { s with resetAsserted := b }
  standing : ∀ (s : State), P s → P s.countStanding

variable {P : State → Prop}

theorem StableInside.receive (h : StableInside P) {s : State} (k : ReqKind) (p : Port) (t : Byte) (ps : List Byte) (hs : P s) :
    P (s.receive k p t ps) := by
  unfold State.receive
  split
  · exact h.settle (h.dispatch _ hs)
  · exact hs

theorem StableInside.finishProgram (h : StableInside P) {s : State} (p : Program) (pass : Bool) (hs : P s) :
    P (s.finishProgram p pass) := by
  unfold State.finishProgram
  refine h.settle (h.engineNext ?_)
  have h1 := h.endProgram p pass hs
  unfold State.afterProgram
  have hc : ∀ r, P (State.configEnds r pass (s.endProgram p pass)) := by
    intro r
    unfold State.configEnds
    split
    · split
      · exact h.configStampDone _ _ _ h1
      · exact h.configWriteDone _ _ _ _ h1
      · exact h.configVoidDone _ _ _ _ h1
      · exact h1
    · exact h1
  split
  · exact h.writeDone _ h1
  · exact h.sealDone _ h1
  · exact h.settleDone _ h1
  · exact h.voidDone _ h1
  · unfold State.stampEnds
    split
    · exact h.stampDone _ _ h1
    · exact h1
  · exact hc _
  · exact hc _
  · exact hc _
  · exact h.repairDone _ h1

theorem StableInside.completes (h : StableInside P) {s : State} (r : ProgramRole) (pass : Bool) (hs : P s) :
    P (s.completes r pass) := by
  unfold State.completes
  split
  · split
    · exact h.finishProgram _ _ hs
    · exact hs
  · exact hs

theorem StableInside.arrive (h : StableInside P) {s : State} (p : Port) (f : Frame) (hs : P s) : P (s.arrive p f) := by
  have h1 := h.count s p .received hs
  unfold State.arrive
  dsimp only
  split
  · rename_i e
    exact h.arrived _ _ _ e h1
  · exact h.count _ _ _ h1

theorem StableInside.arriveHeld (h : StableInside P) {s : State} (p : Port) (f : Frame) (hs : P s) : P (s.arriveHeld p f) := by
  unfold State.arriveHeld
  split
  · split
    · rename_i e; exact h.arrived _ _ _ e hs
    · exact hs
  · exact hs

theorem StableInside.sent (h : StableInside P) {s : State} (o : Outgoing) (hs : P s) : P (s.sent o) := by
  unfold State.sent
  split
  · exact h.awaitedSent hs
  · exact hs

theorem StableInside.endHeld (h : StableInside P) {s : State} (c : StopCause) (e : EraseRec) (hs : P s) : P (s.endHeld c e) :=
  h.settle (h.engineNext (h.eraseStopped _ _ hs))

/-- A command other than those of the supply and RESET keeps what every update it is made of keeps; only ERASE_COMPLETION erases
a route segment. -/
theorem exec_keeps_inside (h : StableInside P) {c : Instr} {s t : State} (hc : isSupplyCommand c = false)
    (erased : ∀ us, c = .eraseCompletion us → ∀ (x : State) (g : Nat), P x → P { x with store := x.store.erased g }) (hs : P s)
    (he : exec c s = .next t) : P t := by
  have done : ∀ {x : State}, P x → (Host.Outcome.next x : Host.Outcome State Fault Refusal) = .next t → P t := by
    intro x hx e
    injection e with e
    exact e ▸ hx
  cases c with
  | powerOn => cases hc
  | lossOfPower => cases hc
  | resetAssertion => cases hc
  | resetRelease => cases hc
  | guardReleaseChange b => exact done (h.guardLevel _ _ hs) he
  | frameArrival p f =>
    simp only [exec, execFrameArrival] at he
    split at he
    · exact done hs he
    · exact done (h.settle (h.arriveHeld _ _ hs)) he
    all_goals exact done (h.settle (h.arrive _ _ hs)) he
  | lookupReadCompletion p m =>
    simp only [exec, execLookupReadCompletion] at he
    split at he
    · exact done (h.settle (h.frameRead _ _ _ (h.readDone _ (h.setStage _ _ hs)))) he
    · exact done hs he
  | readSlotCompletion b m =>
    simp only [exec, execReadSlotCompletion] at he
    split at he
    · exact done (h.settle (h.replyRead _ _ _ _ (h.readDone _ hs))) he
    · exact done hs he
  | sourceReadCompletion m =>
    simp only [exec, execSourceReadCompletion] at he
    split at he
    · exact done (h.settle (h.engineNext (h.sourceRead _ _ _ _ _ (h.engineReadDone _ hs)))) he
    · exact done hs he
  | holdTimerExpiry p =>
    simp only [exec, execHoldTimerExpiry] at he
    split at he
    · exact done (h.settle (h.count _ _ _ (h.withdrawRead _ _ (h.setStage _ _ hs)))) he
    · exact done hs he
  | lineTransmissionCompletion l =>
    simp only [exec, execLineTransmissionCompletion] at he
    split at he
    · exact done (h.sent _ (h.lineSent _ _ hs)) he
    · exact done hs he
  | tapTransmissionCompletion =>
    simp only [exec, execTapTransmissionCompletion] at he
    split at he
    · exact done (h.sent _ (h.tapSent _ hs)) he
    · exact done hs he
  | programDeadlineExpiry =>
    simp only [exec, execProgramDeadlineExpiry] at he
    split at he
    · exact done (h.finishProgram _ _ hs) he
    · exact done hs he
  | writeProgramCompletion b => exact done (h.completes _ _ hs) he
  | sealProgramCompletion b => exact done (h.completes _ _ hs) he
  | settleProgramCompletion b => exact done (h.completes _ _ hs) he
  | voidProgramCompletion b => exact done (h.completes _ _ hs) he
  | stampProgramCompletion b => exact done (h.completes _ _ hs) he
  | configStampCompletion b => exact done (h.completes _ _ hs) he
  | configWriteCompletion b => exact done (h.completes _ _ hs) he
  | configVoidCompletion b => exact done (h.completes _ _ hs) he
  | repairProgramCompletion b => exact done (h.completes _ _ hs) he
  | eraseCompletion us =>
    simp only [exec, execEraseCompletion] at he
    split at he
    · refine done ?_ he
      unfold State.eraseCompletes
      split
      · exact h.settle (h.eraseCompleted (erased us rfl) _ hs)
      · exact h.settle (h.eraseCompleted (erased us rfl) _ hs)
      · exact h.settle (h.eraseCompleted (erased us rfl) _ hs)
      · exact h.endHeld _ _ hs
      · exact hs
    · exact done hs he
  | suspendCompletion us =>
    simp only [exec, execSuspendCompletion] at he
    split at he
    · refine done ?_ he
      unfold State.suspendCompletes
      split
      · exact h.settle (h.engineNext (h.eraseSuspends _ hs))
      · exact h.endHeld _ _ hs
      · exact hs
    · exact done hs he
  | stopCompletion us =>
    simp only [exec, execStopCompletion] at he
    split at he
    · split at he
      · exact done (h.endHeld _ _ hs) he
      · exact done hs he
    · exact done hs he
  | eraseTimeoutExpiry =>
    simp only [exec, execEraseTimeoutExpiry] at he
    split at he
    · split at he
      · exact done (h.setOp _ hs) he
      · exact done (h.setOp _ hs) he
      · exact done (h.setOp _ hs) he
      · exact done hs he
    · exact done hs he
  | runIntervalTimerExpiry =>
    simp only [exec, execRunIntervalTimerExpiry] at he
    split at he
    · refine done ?_ he
      split
      · unfold State.intervalEnds
        dsimp only
        split
        · exact h.lookAgain _ (h.setOp _ hs)
        · exact h.setOp _ hs
      · exact hs
    · exact done hs he
  | idleTimerExpiry =>
    simp only [exec, execIdleTimerExpiry] at he
    split at he
    · exact done (h.addFault _ _ (h.unstaged _ hs)) he
    · exact done hs he
  | configEraseCompletion =>
    simp only [exec, execConfigEraseCompletion] at he
    split at he
    · exact done (h.configErased _ _ hs) he
    · exact done hs he
  | configEraseTimeout =>
    simp only [exec, execConfigEraseTimeout] at he
    split at he
    · exact done (h.setOp _ hs) he
    · exact done hs he
  | configStopCompletion =>
    simp only [exec, execConfigStopCompletion] at he
    split at he
    · exact done (h.settle (h.engineNext (h.configStopped _ _ hs))) he
    · exact done hs he
  | headerReadCompletion m =>
    simp only [exec, execHeaderReadCompletion] at he
    split at he
    · exact done (h.settle (h.headerScanned _ _ (h.engineReadDone _ hs))) he
    · exact done hs he
  | slotScanReadCompletion m =>
    simp only [exec, execSlotScanReadCompletion] at he
    split at he
    · exact done (h.settle (h.slotScanned _ (h.engineReadDone _ hs))) he
    · exact done hs he
  | restartDrainExpiry =>
    simp only [exec, execRestartDrainExpiry] at he
    split at he
    · exact done (h.internalResetOp hs) he
    · exact done hs he
  | status p t ps => exact done (h.receive _ _ _ _ hs) he
  | describe p t ps => exact done (h.receive _ _ _ _ hs) he
  | readSlot p t ps => exact done (h.receive _ _ _ _ hs) he
  | readIndex p t ps => exact done (h.receive _ _ _ _ hs) he
  | readCounters p t ps => exact done (h.receive _ _ _ _ hs) he
  | readCountersWithClear p t b => exact done (h.receive _ _ _ _ hs) he
  | readFaults p t ps => exact done (h.receive _ _ _ _ hs) he
  | readConfig p t ps => exact done (h.receive _ _ _ _ hs) he
  | clearFaults p t ps => exact done (h.receive _ _ _ _ hs) he
  | stage p t ps => exact done (h.receive _ _ _ _ hs) he
  | unstage p t ps => exact done (h.receive _ _ _ _ hs) he
  | abandon p t ps => exact done (h.receive _ _ _ _ hs) he
  | setModeRun p t => exact done (h.receive _ _ _ _ hs) he
  | setModeBypass p t => exact done (h.receive _ _ _ _ hs) he
  | commit p t ps => exact done (h.receive _ _ _ _ hs) he
  | erase p t ps => exact done (h.receive _ _ _ _ hs) he
  | reclaim p t ps => exact done (h.receive _ _ _ _ hs) he
  | setConfig p t ps => exact done (h.receive _ _ _ _ hs) he
  | restart p t ps => exact done (h.receive _ _ _ _ hs) he

/-- A command keeps what every update it is made of keeps. -/
theorem exec_keeps (h : StableCommands P) {c : Instr} {s t : State}
    (erased : ∀ us, c = .eraseCompletion us → ∀ (x : State) (g : Nat), P x → P { x with store := x.store.erased g }) (hs : P s)
    (he : exec c s = .next t) : P t := by
  by_cases hc : isSupplyCommand c = false
  · exact exec_keeps_inside h.toStableInside hc erased hs he
  · have done : ∀ {x : State}, P x → (Host.Outcome.next x : Host.Outcome State Fault Refusal) = .next t → P t := by
      intro x hx e
      injection e with e
      exact e ▸ hx
    have hl : ∀ b : Bool, P { s with resetAsserted := b } := fun b => h.resetLevel s b hs
    cases c with
    | powerOn =>
      refine done ?_ he
      unfold State.powerUp
      split
      · exact h.reset _ _ hs
      · exact h.beginMount (h.reset _ _ hs)
    | lossOfPower => exact done (h.reset _ _ hs) he
    | resetAssertion =>
      refine done ?_ he
      split
      · exact h.reset _ _ (hl true)
      · exact hl true
    | resetRelease =>
      refine done ?_ he
      split
      · exact h.settle (h.beginMount (h.standing _ (hl false)))
      · exact hl false
    | _ => exact absurd rfl hc

end Sys2Proof.Machine
end

