-- ==== Sys2Proof/Laws/Table.lean ====
section
/-! SUPPORT. What the tables, the per-port tables and the store read after each of their operations, and that every operation
keeps the canonical form. -/

namespace Sys2Proof.Machine

/-! ## Per port, line and bank -/

@[simp] theorem PerPort.get_set_same {α : Type} (t : PerPort α) (p : Port) (v : α) : (t.set p v).get p = v := by
  cases p <;> rfl

theorem PerPort.get_set_other {α : Type} (t : PerPort α) {p q : Port} (v : α) (h : q ≠ p) : (t.set p v).get q = t.get q := by
  cases p <;> cases q <;> first | rfl | exact absurd rfl h

@[simp] theorem PerLine.get_set_same {α : Type} (t : PerLine α) (l : Line) (v : α) : (t.set l v).get l = v := by
  cases l <;> rfl

theorem PerLine.get_set_other {α : Type} (t : PerLine α) {l m : Line} (v : α) (h : m ≠ l) : (t.set l v).get m = t.get m := by
  cases l <;> cases m <;> first | rfl | exact absurd rfl h

@[simp] theorem PerBank.get_set_same {α : Type} (t : PerBank α) (b : Bank) (v : α) : (t.set b v).get b = v := by
  cases b <;> rfl

theorem PerBank.get_set_other {α : Type} (t : PerBank α) {b c : Bank} (v : α) (h : c ≠ b) : (t.set b v).get c = t.get c := by
  cases b <;> cases c <;> first | rfl | exact absurd rfl h

/-! ## Tables -/

variable {α : Type} [DecidableEq α] {d : α}

/-- A table that rises from `hi` rises from every lower key. -/
theorem tableRisesFrom_mono {t : Table α} {lo hi : Nat} (h : lo ≤ hi) (ht : tableRisesFrom d hi t = true) :
    tableRisesFrom d lo t = true := by
  cases t with
  | nil => rfl
  | cons kv t =>
    obtain ⟨k, v⟩ := kv
    simp only [tableRisesFrom, Bool.and_eq_true, decide_eq_true_eq] at ht ⊢
    exact ⟨⟨Nat.le_trans h ht.1.1, ht.1.2⟩, ht.2⟩

/-- A key below those of a rising table is unlisted. -/
theorem tableGet_below {t : Table α} {lo i : Nat} (ht : tableRisesFrom d lo t = true) (h : i < lo) : tableGet d t i = d := by
  induction t generalizing lo with
  | nil => rfl
  | cons kv t ih =>
    obtain ⟨k, v⟩ := kv
    simp only [tableRisesFrom, Bool.and_eq_true, decide_eq_true_eq] at ht
    have hk : i ≠ k := by omega
    simp only [tableGet, hk, if_false]
    exact ih ht.2 (by omega)

/-- A put keeps the form from any key not above the one written. -/
theorem tablePut_rises {t : Table α} {lo i : Nat} (v : α) (hlo : lo ≤ i) (ht : tableRisesFrom d lo t = true) :
    tableRisesFrom d lo (tablePut d i v t) = true := by
  induction t generalizing lo with
  | nil =>
    simp only [tablePut]
    by_cases hv : v = d
    · simp [hv, tableRisesFrom]
    · simp [hv, tableRisesFrom, hlo]
  | cons kv t ih =>
    obtain ⟨k, w⟩ := kv
    have ht' := ht
    simp only [tableRisesFrom, Bool.and_eq_true, decide_eq_true_eq] at ht
    obtain ⟨⟨h1, h2⟩, h3⟩ := ht
    simp only [tablePut]
    by_cases hik : i < k
    · by_cases hv : v = d
      · simp only [hik, hv, if_true]; exact ht'
      · simp only [hik, hv, if_true, if_false, tableRisesFrom, Bool.and_eq_true, decide_eq_true_eq]
        exact ⟨⟨hlo, hv⟩, ⟨by omega, h2⟩, h3⟩
    · by_cases he : i = k
      · by_cases hv : v = d
        · simp only [he, hv, if_true]
          simpa using tableRisesFrom_mono (by omega) h3
        · simp only [he, hv, if_true, if_false]
          simp only [Nat.lt_irrefl, if_false, tableRisesFrom, Bool.and_eq_true, decide_eq_true_eq]
          exact ⟨⟨h1, hv⟩, h3⟩
      · simp only [hik, he, if_false, tableRisesFrom, Bool.and_eq_true, decide_eq_true_eq]
        exact ⟨⟨h1, h2⟩, ih (by omega) h3⟩

/-- A put keeps the canonical form. -/
theorem tablePut_wf {t : Table α} (i : Nat) (v : α) (ht : tableWf d t = true) : tableWf d (tablePut d i v t) = true :=
  tablePut_rises v (Nat.zero_le i) ht

/-- Every other key reads as before a put. -/
theorem tableGet_tablePut_other (t : Table α) {i j : Nat} (v : α) (h : j ≠ i) : tableGet d (tablePut d i v t) j = tableGet d t j := by
  induction t with
  | nil =>
    simp only [tablePut]
    by_cases hv : v = d
    · simp [hv]
    · simp [hv, tableGet, h]
  | cons kv t ih =>
    obtain ⟨k, w⟩ := kv
    simp only [tablePut]
    by_cases hik : i < k
    · by_cases hv : v = d
      · simp [hik, hv]
      · simp [hik, hv, tableGet, h]
    · by_cases he : i = k
      · subst he
        by_cases hv : v = d
        · simp [hv, tableGet, h]
        · simp [hv, tableGet, h]
      · simp only [hik, he, if_false, tableGet]
        by_cases hjk : j = k
        · simp [hjk]
        · simp [hjk, ih]

/-- The key written reads as what was written. -/
theorem tableGet_tablePut_same_from {t : Table α} {lo : Nat} (i : Nat) (v : α) (ht : tableRisesFrom d lo t = true) :
    tableGet d (tablePut d i v t) i = v := by
  induction t generalizing lo with
  | nil =>
    simp only [tablePut]
    by_cases hv : v = d
    · simp [hv, tableGet]
    · simp [hv, tableGet]
  | cons kv t ih =>
    obtain ⟨k, w⟩ := kv
    have ht' := ht
    simp only [tableRisesFrom, Bool.and_eq_true, decide_eq_true_eq] at ht
    obtain ⟨⟨h1, h2⟩, h3⟩ := ht
    simp only [tablePut]
    by_cases hik : i < k
    · by_cases hv : v = d
      · simp only [hik, hv, if_true]
        have hne : i ≠ k := by omega
        simp only [tableGet, hne, if_false]
        exact tableGet_below h3 (by omega)
      · simp [hik, hv, tableGet]
    · by_cases he : i = k
      · subst he
        by_cases hv : v = d
        · simp only [Nat.lt_irrefl, hv, if_true, if_false]
          exact tableGet_below h3 (by omega)
        · simp [hv, tableGet]
      · simp only [hik, he, if_false, tableGet]
        exact ih h3

/-- The key written reads as what was written, in a table in canonical form. -/
theorem tableGet_tablePut_same {t : Table α} (i : Nat) (v : α) (ht : tableWf d t = true) :
    tableGet d (tablePut d i v t) i = v :=
  tableGet_tablePut_same_from i v ht

/-- What a table reads after a put. -/
theorem tableGet_tablePut {t : Table α} (i j : Nat) (v : α) (ht : tableWf d t = true) :
    tableGet d (tablePut d i v t) j = if j = i then v else tableGet d t j := by
  by_cases h : j = i
  · subst h; simp [tableGet_tablePut_same j v ht]
  · simp [h, tableGet_tablePut_other t v h]

/-- A run of keys rises. -/
theorem tableRun_rises {v : α} (hv : v ≠ d) (lo n : Nat) : tableRisesFrom d lo (tableRun v lo n) = true := by
  induction n generalizing lo with
  | zero => rfl
  | succ n ih => simp [tableRun, tableRisesFrom, hv, ih]

/-- What a run of keys reads. -/
theorem tableGet_tableRun (v : α) (lo n j : Nat) :
    tableGet d (tableRun v lo n) j = if lo ≤ j ∧ j < lo + n then v else d := by
  induction n generalizing lo with
  | zero => simp [tableRun, tableGet] <;> omega
  | succ n ih =>
    simp only [tableRun, tableGet, ih]
    by_cases h : j = lo
    · simp [h]
    · simp only [h, if_false]
      by_cases h2 : lo + 1 ≤ j ∧ j < lo + 1 + n
      · rw [if_pos h2, if_pos (by omega)]
      · rw [if_neg h2, if_neg (by omega)]

/-- An appended table is consulted behind the first. -/
theorem tableGet_append_of_rises {t u : Table α} {lo j : Nat} (ht : tableRisesFrom d lo t = true) :
    tableGet d (t ++ u) j = if tableGet d t j = d then tableGet d u j else tableGet d t j := by
  induction t generalizing lo with
  | nil => simp [tableGet]
  | cons kv t ih =>
    obtain ⟨k, w⟩ := kv
    simp only [tableRisesFrom, Bool.and_eq_true, decide_eq_true_eq] at ht
    simp only [List.cons_append, tableGet]
    by_cases h : j = k
    · simp [h, ht.1.2]
    · simp [h, ih ht.2]

/-- A filtered rising table rises. -/
theorem tableRisesFrom_filter {t : Table α} {lo : Nat} (f : Nat × α → Bool) (ht : tableRisesFrom d lo t = true) :
    tableRisesFrom d lo (t.filter f) = true := by
  induction t generalizing lo with
  | nil => rfl
  | cons kv t ih =>
    obtain ⟨k, w⟩ := kv
    simp only [tableRisesFrom, Bool.and_eq_true, decide_eq_true_eq] at ht
    simp only [List.filter_cons]
    split
    · simp only [tableRisesFrom, Bool.and_eq_true, decide_eq_true_eq]
      exact ⟨ht.1, ih ht.2⟩
    · exact tableRisesFrom_mono (by omega) (ih ht.2)

/-- What a table filtered by key reads. -/
theorem tableGet_filter {t : Table α} {lo : Nat} (f : Nat → Bool) (j : Nat) (ht : tableRisesFrom d lo t = true) :
    tableGet d (t.filter (fun kv => f kv.1)) j = if f j then tableGet d t j else d := by
  induction t generalizing lo with
  | nil => simp [tableGet]
  | cons kv t ih =>
    obtain ⟨k, w⟩ := kv
    simp only [tableRisesFrom, Bool.and_eq_true, decide_eq_true_eq] at ht
    simp only [List.filter_cons]
    by_cases hj : j = k
    · subst hj
      by_cases hf : f j
      · simp [hf, tableGet]
      · have := tableGet_below (i := j) (tableRisesFrom_filter (fun kv : Nat × α => f kv.1) ht.2) (Nat.lt_succ_self j)
        simp [hf, this]
    · by_cases hf : f k
      · simp [hf, tableGet, hj, ih ht.2]
      · simp [hf, tableGet, hj, ih ht.2]

/-- Two rising tables, the second above the first, rise together. -/
theorem tableRisesFrom_append {t u : Table α} {lo hi : Nat} (ht : tableRisesFrom d lo t = true)
    (hb : ∀ kv ∈ t, kv.1 < hi) (hlo : lo ≤ hi) (hu : tableRisesFrom d hi u = true) :
    tableRisesFrom d lo (t ++ u) = true := by
  induction t generalizing lo with
  | nil => exact tableRisesFrom_mono hlo hu
  | cons kv t ih =>
    obtain ⟨k, w⟩ := kv
    simp only [tableRisesFrom, Bool.and_eq_true, decide_eq_true_eq] at ht
    have hk : k < hi := hb (k, w) (List.mem_cons_self ..)
    simp only [List.cons_append, tableRisesFrom, Bool.and_eq_true, decide_eq_true_eq]
    exact ⟨ht.1, ih ht.2 (fun kv hkv => hb kv (List.mem_cons_of_mem _ hkv)) (by omega)⟩

/-- A table whose keys stand at or above `hi` rises from there. -/
theorem tableRisesFrom_raise {t : Table α} {lo hi : Nat} (ht : tableRisesFrom d lo t = true) (hb : ∀ kv ∈ t, hi ≤ kv.1) :
    tableRisesFrom d hi t = true := by
  cases t with
  | nil => rfl
  | cons kv t =>
    obtain ⟨k, w⟩ := kv
    simp only [tableRisesFrom, Bool.and_eq_true, decide_eq_true_eq] at ht ⊢
    exact ⟨⟨hb (k, w) (List.mem_cons_self ..), ht.1.2⟩, ht.2⟩

omit [DecidableEq α] in
/-- The keys of a run stand below its end. -/
theorem mem_tableRun {v : α} {lo n : Nat} {kv : Nat × α} (h : kv ∈ tableRun v lo n) : lo ≤ kv.1 ∧ kv.1 < lo + n := by
  induction n generalizing lo with
  | zero => simp [tableRun] at h
  | succ n ih =>
    simp only [tableRun, List.mem_cons] at h
    rcases h with h | h
    · subst h; exact ⟨Nat.le_refl _, by simp⟩
    · have := ih h; omega

/-- A fill keeps the canonical form. -/
theorem tableFill_wf {t : Table α} (lo n : Nat) (v : α) (ht : tableWf d t = true) : tableWf d (tableFill d lo n v t) = true := by
  have h1 : tableRisesFrom d 0 (t.filter (fun kv => decide (kv.1 < lo))) = true := tableRisesFrom_filter _ ht
  have h3 : tableRisesFrom d (lo + n) (t.filter (fun kv => decide (lo + n ≤ kv.1))) = true :=
    tableRisesFrom_raise (tableRisesFrom_filter _ ht) (fun kv h => by simpa using (List.mem_filter.1 h).2)
  have hb : ∀ kv ∈ t.filter (fun kv => decide (kv.1 < lo)), kv.1 < lo := fun kv h => by simpa using (List.mem_filter.1 h).2
  unfold tableWf tableFill
  by_cases hv : v = d
  · simp only [hv, if_true, List.append_nil]
    exact tableRisesFrom_append h1 (fun kv h => Nat.lt_of_lt_of_le (hb kv h) (Nat.le_add_right lo n)) (Nat.zero_le _) h3
  · simp only [hv, if_false, List.append_assoc]
    exact tableRisesFrom_append h1 hb (Nat.zero_le _)
      (tableRisesFrom_append (tableRun_rises hv lo n) (fun kv h => (mem_tableRun h).2) (Nat.le_add_right lo n) h3)

/-- What a table reads after a fill. -/
theorem tableGet_tableFill {t : Table α} (lo n : Nat) (v : α) (j : Nat) (ht : tableWf d t = true) :
    tableGet d (tableFill d lo n v t) j = if lo ≤ j ∧ j < lo + n then v else tableGet d t j := by
  have h1 : tableRisesFrom d 0 (t.filter (fun kv => decide (kv.1 < lo))) = true := tableRisesFrom_filter _ ht
  unfold tableFill
  have g1 := tableGet_filter (t := t) (d := d) (fun k => decide (k < lo)) j ht
  have g3 := tableGet_filter (t := t) (d := d) (fun k => decide (lo + n ≤ k)) j ht
  by_cases hv : v = d
  · simp only [hv, if_true, List.append_nil]
    rw [tableGet_append_of_rises h1, g1, g3]
    by_cases a : j < lo
    · have : ¬ (lo ≤ j ∧ j < lo + n) := by omega
      have b : ¬ lo + n ≤ j := by omega
      simp only [a, this, b, decide_true, if_true, if_false, decide_false]
      split
      · rename_i h; simp [h]
      · rfl
    · by_cases b : lo + n ≤ j
      · have : ¬ (lo ≤ j ∧ j < lo + n) := by omega
        simp [a, b, this]
      · have : lo ≤ j ∧ j < lo + n := by omega
        simp [a, b, this]
  · simp only [hv, if_false, List.append_assoc]
    rw [tableGet_append_of_rises h1, g1, tableGet_append_of_rises (tableRun_rises hv lo n), tableGet_tableRun, g3]
    by_cases a : j < lo
    · have : ¬ (lo ≤ j ∧ j < lo + n) := by omega
      have b : ¬ lo + n ≤ j := by omega
      simp only [a, this, b, decide_true, if_true, if_false, decide_false]
      split
      · rename_i h; simp [h]
      · rfl
    · by_cases b : lo + n ≤ j
      · have : ¬ (lo ≤ j ∧ j < lo + n) := by omega
        simp [a, b, this]
      · have : lo ≤ j ∧ j < lo + n := by omega
        simp [a, this, hv]

/-! ## The store -/

/-- Slot keys of distinct slots are distinct. -/
theorem slotKey_inj {a b : SlotAddr} (ha : a.slot < Config.slotsPerSegment) (hb : b.slot < Config.slotsPerSegment)
    (h : slotKey a = slotKey b) : a = b := by
  simp only [slotKey, Config.slotsPerSegment] at *
  have h1 : a.seg = b.seg := by omega
  have h2 : a.slot = b.slot := by omega
  cases a; cases b; simp_all

/-- The keys of a segment's slots are one run. -/
theorem slotKey_in_segment {a : SlotAddr} {g : Nat} (ha : a.slot < Config.slotsPerSegment) :
    (Config.slotsPerSegment * g ≤ slotKey a ∧ slotKey a < Config.slotsPerSegment * g + Config.slotsPerSegment) ↔ a.seg = g := by
  simp only [slotKey, Config.slotsPerSegment] at *
  omega

/-- The parts of a store in canonical form. -/
theorem Store.wf_iff (m : Store) :
    m.wf = true ↔ tableWf .blank m.slots = true ∧ tableWf .blank m.cfgSlots = true ∧ tableWf (.stamped 0) m.headers = true := by
  simp [Store.wf, and_assoc]

/-- A slot write keeps the canonical form. -/
theorem Store.putSlot_wf {m : Store} (a : SlotAddr) (v : Slot) (h : m.wf = true) : (m.putSlot a v).wf = true := by
  rw [Store.wf_iff] at h ⊢
  exact ⟨tablePut_wf _ _ h.1, h.2.1, h.2.2⟩

/-- A configuration slot write keeps the canonical form. -/
theorem Store.putCfgSlot_wf {m : Store} (a : SlotAddr) (v : CfgSlot) (h : m.wf = true) : (m.putCfgSlot a v).wf = true := by
  rw [Store.wf_iff] at h ⊢
  exact ⟨h.1, tablePut_wf _ _ h.2.1, h.2.2⟩

/-- A header write keeps the canonical form. -/
theorem Store.putHeader_wf {m : Store} (g : Nat) (v : Header) (h : m.wf = true) : (m.putHeader g v).wf = true := by
  rw [Store.wf_iff] at h ⊢
  exact ⟨h.1, h.2.1, tablePut_wf _ _ h.2.2⟩

/-- A fill of a route segment keeps the canonical form. -/
theorem Store.fillRouteSegment_wf {m : Store} (g : Nat) (v : Slot) (h : m.wf = true) : (m.fillRouteSegment g v).wf = true := by
  rw [Store.wf_iff] at h ⊢
  exact ⟨tableFill_wf _ _ _ h.1, h.2.1, h.2.2⟩

/-- A fill of a configuration segment keeps the canonical form. -/
theorem Store.fillCfgSegment_wf {m : Store} (g : Nat) (v : CfgSlot) (h : m.wf = true) : (m.fillCfgSegment g v).wf = true := by
  rw [Store.wf_iff] at h ⊢
  exact ⟨h.1, tableFill_wf _ _ _ h.2.1, h.2.2⟩

/-- A completed erase keeps the canonical form. -/
theorem Store.erased_wf {m : Store} (g : Nat) (h : m.wf = true) : (m.erased g).wf = true := by
  unfold Store.erased
  split
  · exact Store.putHeader_wf _ _ (Store.fillRouteSegment_wf _ _ h)
  · exact Store.putHeader_wf _ _ (Store.fillCfgSegment_wf _ _ h)

/-- A torn segment keeps the canonical form. -/
theorem Store.torn_wf {m : Store} (g : Nat) (h : m.wf = true) : (m.torn g).wf = true := by
  unfold Store.torn
  split
  · exact Store.putHeader_wf _ _ (Store.fillRouteSegment_wf _ _ h)
  · exact Store.putHeader_wf _ _ (Store.fillCfgSegment_wf _ _ h)

/-- The end of a program keeps the canonical form. -/
theorem Store.programmed_wf {m : Store} (j : Job) (pass : Bool) (h : m.wf = true) : (m.programmed j pass).wf = true := by
  cases j with
  | slot a w => exact Store.putSlot_wf _ _ h
  | stamp g n => exact Store.putHeader_wf _ _ h
  | cfgRecord a n v => exact Store.putCfgSlot_wf _ _ h
  | cfgVoid a => exact Store.putCfgSlot_wf _ _ h

/-- The slot written reads as what was written. -/
theorem Store.slot_putSlot_same {m : Store} (a : SlotAddr) (v : Slot) (h : m.wf = true) : (m.putSlot a v).slot a = v :=
  tableGet_tablePut_same _ _ ((Store.wf_iff m).1 h).1

/-- Every other slot reads as before. -/
theorem Store.slot_putSlot_other (m : Store) {a b : SlotAddr} (v : Slot) (ha : a.slot < Config.slotsPerSegment)
    (hb : b.slot < Config.slotsPerSegment) (hne : b ≠ a) : (m.putSlot a v).slot b = m.slot b :=
  tableGet_tablePut_other _ _ (fun h => hne (slotKey_inj hb ha h))

/-- After a completed erase every slot of a route segment reads BLANK and every other slot as before (R21). -/
theorem Store.slot_erased {m : Store} {g : Nat} (a : SlotAddr) (h : m.wf = true) (hg : g < Config.routeSegments)
    (ha : a.slot < Config.slotsPerSegment) : (m.erased g).slot a = if a.seg = g then .blank else m.slot a := by
  have hf := tableGet_tableFill (Config.slotsPerSegment * g) Config.slotsPerSegment Slot.blank (slotKey a) ((Store.wf_iff m).1 h).1
  simp only [Store.erased, hg, if_true, Store.slot, Store.putHeader, Store.fillRouteSegment]
  rw [hf]
  by_cases e : a.seg = g
  · rw [if_pos e, if_pos ((slotKey_in_segment ha).2 e)]
  · rw [if_neg e, if_neg (fun x => e ((slotKey_in_segment ha).1 x))]

/-- After a torn erase every slot of a route segment is indeterminate and every other slot reads as before (R22). -/
theorem Store.slot_torn {m : Store} {g : Nat} (a : SlotAddr) (h : m.wf = true) (hg : g < Config.routeSegments)
    (ha : a.slot < Config.slotsPerSegment) : (m.torn g).slot a = if a.seg = g then .indeterminate else m.slot a := by
  have hf := tableGet_tableFill (Config.slotsPerSegment * g) Config.slotsPerSegment Slot.indeterminate (slotKey a)
    ((Store.wf_iff m).1 h).1
  simp only [Store.torn, hg, if_true, Store.slot, Store.putHeader, Store.fillRouteSegment]
  rw [hf]
  by_cases e : a.seg = g
  · rw [if_pos e, if_pos ((slotKey_in_segment ha).2 e)]
  · rw [if_neg e, if_neg (fun x => e ((slotKey_in_segment ha).1 x))]

/-- The header of an erased or torn segment reads unstamped; every other header reads as before (R10, R22). -/
theorem Store.header_erased {m : Store} (g x : Nat) (h : m.wf = true) :
    (m.erased g).header x = if x = g then .unstamped else m.header x := by
  have hw := ((Store.wf_iff m).1 h).2.2
  unfold Store.erased
  split
  · exact tableGet_tablePut g x _ hw
  · exact tableGet_tablePut g x _ hw

theorem Store.header_torn {m : Store} (g x : Nat) (h : m.wf = true) :
    (m.torn g).header x = if x = g then .unstamped else m.header x := by
  have hw := ((Store.wf_iff m).1 h).2.2
  unfold Store.torn
  split
  · exact tableGet_tablePut g x _ hw
  · exact tableGet_tablePut g x _ hw

/-- A program on a slot leaves every other slot as it was (R5, R8, R9). -/
theorem Store.slot_programmed_other (m : Store) {a b : SlotAddr} (w : SlotWrite) (pass : Bool) (ha : a.slot < Config.slotsPerSegment)
    (hb : b.slot < Config.slotsPerSegment) (hne : b ≠ a) : (m.programmed (.slot a w) pass).slot b = m.slot b :=
  Store.slot_putSlot_other m _ ha hb hne

/-- The slot of a program at its end (R8, R9). -/
theorem Store.slot_programmed_same {m : Store} (a : SlotAddr) (w : SlotWrite) (pass : Bool) (h : m.wf = true) :
    (m.programmed (.slot a w) pass).slot a = if pass then w.passed (m.slot a) else .indeterminate :=
  Store.slot_putSlot_same a _ h

/-! ## The index -/

/-- What the Channel Index gives after one position is replaced. -/
theorem tablePut_position {t : Table (Option SlotAddr)} (c x : Nat) (v : Option SlotAddr) (h : tableWf none t = true) :
    tableGet none (tablePut none c v t) x = if x = c then v else tableGet none t x :=
  tableGet_tablePut c x v h

end Sys2Proof.Machine
end

