-- ==== Sys2Proof/Laws/Events.lean ====
section
/-! SUPPORT. What the end of an event can do, said once: between two commands no lookup stage takes a head, and the operations of
the banks, of the counters and of the egress side never make one idle. -/

namespace Sys2Proof.Machine

/-! ## Heads waiting for an idle stage -/

theorem State.takes_congr {s t : State} (h1 : t.stages = s.stages) (h2 : t.ingress = s.ingress) : t.takes = s.takes := by
  funext p
  unfold State.takes
  rw [h1, h2]

theorem State.drained_congr {s t : State} (h1 : t.stages = s.stages) (h2 : t.ingress = s.ingress) : t.drained = s.drained := by
  unfold State.drained State.nextTaker
  rw [State.takes_congr h1 h2]

/-- A drained state: no stage takes. -/
theorem State.drained_iff (s : State) : s.drained = true ↔ ∀ p, s.takes p = false := by
  have e : s.drained = (!s.takes .east && !s.takes .west && !s.takes .tap) := by
    unfold State.drained State.nextTaker
    simp only [List.find?]
    cases s.takes .east <;> cases s.takes .west <;> cases s.takes .tap <;> rfl
  rw [e]
  simp only [Bool.and_eq_true, Bool.not_eq_true']
  constructor
  · rintro ⟨⟨h1, h2⟩, h3⟩ p
    cases p <;> assumption
  · intro h
    exact ⟨⟨h _, h _⟩, h _⟩

theorem State.takes_of_drained {s : State} (h : s.drained = true) (p : Port) : s.takes p = false :=
  s.drained_iff.mp h p

/-- In a drained state nothing is taken. -/
theorem takeHeads_drained (n : Nat) {s : State} (h : s.drained = true) : State.takeHeads n s = s := by
  cases n with
  | zero => rfl
  | succ n =>
    have : s.nextTaker = none := by simpa [State.drained] using h
    simp only [State.takeHeads, this]

/-- In a drained state the end of an event examines the erase and does nothing else. -/
theorem settle_drained {s : State} (h : s.drained = true) : s.settle = s.examineErase := by
  unfold State.settle
  rw [takeHeads_drained _ h]

theorem started_ne_idle {g : Stage} : g.started = .idle ↔ g = .idle := by
  cases g <;> simp [Stage.started]

/-- The operations of the banks leave a drained state drained. -/
theorem drained_banks : StableBanks (fun s => s.drained = true) where
  inner _ _ _ _ _ _ h := h
  started s p h := by
    rw [State.drained_iff] at h ⊢
    intro q
    have hq := h q
    unfold State.takes at hq ⊢
    by_cases e : q = p
    · subst e
      simpa only [State.setStage, PerPort.get_set_same, started_ne_idle] using hq
    · simpa only [State.setStage, PerPort.get_set_other _ _ e] using hq

/-! ## The number of frames that wait -/

/-- Every operation leaves at most as many frames waiting. -/
theorem ingressTotal_stable (n : Nat) : Stable (fun s => s.ingressTotal ≤ n) where
  toStableWork := StableWork.ofWork (fun _ _ _ _ _ _ _ h => h)
  setSeg _ _ _ _ h := h
  allocate s g h := by
    unfold State.allocate
    split <;> exact h
  openConfigSegment s g h := by
    unfold State.openConfigSegment
    split
    · split <;> exact h
    · exact h
  setAllSegments s m h := by
    have e : ∀ (l : List Nat) (x : State),
        (l.foldl (fun acc g => acc.setSegFill g (if g < Config.routeSegments then m.routeState g else m.cfgState g)
          (if m.stamped g then m.fill g else 0)) x).ingressTotal = x.ingressTotal := by
      intro l
      induction l with
      | nil => intro x; rfl
      | cons y l ih => intro x; exact ih _
    exact (e _ s).symm ▸ h
  programmed _ _ _ h := h
  erasedCfg _ _ h := h
  torn _ _ h := h
  setPosition _ _ _ h := h
  resolved _ _ _ _ h := h
  unstaged _ h := h
  staged _ _ _ _ _ _ _ h := h
  dequeued _ _ _ h := h
  enqueued _ _ _ h := h
  issue _ _ h := h
  addFault s r h := by simpa [State.ingressTotal] using h
  clearFaults _ h := h
  count _ _ _ h := h
  clearCounters _ _ h := h
  placeTraffic _ _ _ h := by simpa [State.ingressTotal] using h
  carryTraffic _ _ _ h := by simpa [State.ingressTotal] using h
  placeDelivery _ _ h := by simpa [State.ingressTotal] using h
  placeReply _ _ _ h := by simpa [State.ingressTotal] using h
  remember _ _ _ _ _ h := h
  config _ _ h := h
  taken s p f rest e h := by
    revert h
    cases p <;> simp only [PerPort.get] at e <;> simp only [State.ingressTotal, PerPort.set, e, List.length_cons] <;> omega
  opState _ _ _ h := h
  internalReset _ _ := Nat.zero_le _

/-- A stage that takes a head leaves one frame fewer waiting. -/
theorem ingressTotal_takeHead {s : State} {p : Port} {n : Nat} (ht : s.takes p = true) (h : s.ingressTotal ≤ n + 1) :
    (s.takeHead p).ingressTotal ≤ n := by
  have hs := ingressTotal_stable n
  have hne : s.ingress.get p ≠ [] := by
    intro e
    simp [State.takes, e] at ht
  unfold State.takeHead
  split
  · rename_i e
    exact absurd e hne
  · rename_i f rest e
    have h1 : ({ s with ingress := s.ingress.set p rest } : State).ingressTotal ≤ n := by
      revert h
      cases p <;> simp only [PerPort.get] at e <;> simp only [State.ingressTotal, PerPort.set, e, List.length_cons] <;> omega
    dsimp only
    split
    · exact h1
    · unfold State.carryAcross
      split
      · exact hs.carryTraffic _ _ _ h1
      · exact h1
    · exact hs.bypassFrame _ _ h1
    · exact hs.bypassFrame _ _ h1
    · exact hs.judgeFrame _ _ h1

theorem State.takes_of_nextTaker {s : State} {p : Port} (h : s.nextTaker = some p) : s.takes p = true :=
  List.find?_some h

/-- The operations of the banks leave what the stages take alone. -/
theorem takes_stable (f : Port → Bool) : StableBanks (fun s => s.takes = f) where
  inner _ _ _ _ _ _ h := h
  started s p h := by
    rw [← h]
    funext q
    unfold State.takes
    by_cases e : q = p
    · subst e
      simp only [State.setStage, PerPort.get_set_same, started_ne_idle]
    · simp only [State.setStage, PerPort.get_set_other _ _ e]

theorem takes_examineReasons (s : State) : s.examineReasons.takes = s.takes :=
  (takes_stable s.takes).examineReasons rfl

theorem ingressTotal_examineReasons {s : State} {n : Nat} (h : s.ingressTotal ≤ n) : s.examineReasons.ingressTotal ≤ n :=
  (ingressTotal_stable n).examineReasons h

/-- One round of taking heads leaves one frame fewer waiting. -/
theorem ingressTotal_round {s : State} {p : Port} {n : Nat} (h : s.nextTaker = some p) (hn : s.ingressTotal ≤ n + 1) :
    (s.examineReasons.takeHead p).ingressTotal ≤ n :=
  ingressTotal_takeHead (by rw [takes_examineReasons]; exact State.takes_of_nextTaker h) (ingressTotal_examineReasons hn)

/-- With as many rounds as frames wait, no stage is left with a head to take. -/
theorem drained_takeHeads (n : Nat) : ∀ s : State, s.ingressTotal ≤ n → (State.takeHeads n s).drained = true := by
  induction n with
  | zero =>
    intro s h
    rw [State.drained_iff]
    intro p
    have h0 : (s.ingress.get p).length = 0 := by
      unfold State.ingressTotal at h
      cases p <;> simp only [PerPort.get] <;> omega
    have e := List.length_eq_zero_iff.mp h0
    simp [State.takeHeads, State.takes, e]
  | succ n ih =>
    intro s h
    unfold State.takeHeads
    split
    · rename_i p e
      exact ih _ (ingressTotal_round e h)
    · rename_i e
      simp [State.drained, e]

/-- Rounds beyond the number of frames that wait change nothing. -/
theorem takeHeads_enough (n : Nat) : ∀ (m : Nat) (s : State), s.ingressTotal ≤ n → n ≤ m →
    State.takeHeads m s = State.takeHeads n s := by
  induction n with
  | zero =>
    intro m s h _
    exact takeHeads_drained m (drained_takeHeads 0 s h)
  | succ n ih =>
    intro m s h hm
    cases m with
    | zero => omega
    | succ m =>
      unfold State.takeHeads
      split
      · rename_i p e
        exact ih m _ (ingressTotal_round e h) (by omega)
      · rfl

/-- The end of every event leaves no stage with a head to take. -/
theorem drained_settle (s : State) : s.settle.drained = true :=
  drained_banks.examineErase (drained_takeHeads _ s (Nat.le_refl _))

/-- A round of taking heads goes before the rest. -/
theorem settle_takes {s : State} {p : Port} (h : s.nextTaker = some p) : s.settle = (s.examineReasons.takeHead p).settle := by
  have ht := State.takes_of_nextTaker h
  have hpos : 0 < s.ingressTotal := by
    cases e : s.ingressTotal with
    | zero =>
      have := drained_takeHeads 0 s (by omega)
      rw [State.takeHeads, State.drained_iff] at this
      simp [this p] at ht
    | succ n => omega
  obtain ⟨n, e⟩ : ∃ n, s.ingressTotal = n + 1 := ⟨s.ingressTotal - 1, by omega⟩
  have hle : (s.examineReasons.takeHead p).ingressTotal ≤ n := ingressTotal_round h (by omega)
  unfold State.settle
  rw [e]
  rw [State.takeHeads, h]
  rw [← takeHeads_enough _ n _ (Nat.le_refl _) hle]

end Sys2Proof.Machine
end

