-- ==== Sys2Proof/Laws/Arrivals.lean ====
section
/-! SUPPORT. A frame that arrives at an idle lookup stage of a drained unit is judged at once. -/

namespace Sys2Proof.Machine

/-- In a drained state nothing waits at an idle stage. -/
theorem ingress_of_drained {s : State} (h : s.drained = true) {p : Port} (hi : s.stages.get p = .idle) : s.ingress.get p = [] := by
  have := State.takes_of_drained h p
  simp [State.takes, hi] at this
  exact this

theorem PerPort.set_get_self {α} (t : PerPort α) (p : Port) : t.set p (t.get p) = t := by cases p <;> rfl
theorem PerPort.set_set {α} (t : PerPort α) (p : Port) (a b : α) : (t.set p a).set p b = t.set p b := by cases p <;> rfl

/-- In a drained state, the stage that is idle takes the frame just appended. -/
theorem nextTaker_appended {s : State} (h : s.drained = true) {p : Port} (hi : s.stages.get p = .idle) (f : Frame) :
    (s.appendIngress p f).nextTaker = some p := by
  have ht : ∀ q, (s.appendIngress p f).takes q = decide (q = p) := by
    intro q
    have := State.takes_of_drained h q
    unfold State.takes State.appendIngress at *
    by_cases e : q = p
    · subst e; simp [hi]
    · simp only [PerPort.get_set_other _ _ e]; simp [e]; simpa using this
  unfold State.nextTaker
  simp only [List.find?, ht]
  cases p <;> simp

/-- What the stage does with that frame, by the operating state. -/
theorem takeHead_appended {s : State} (h : s.drained = true) {p : Port} (hi : s.stages.get p = .idle) (f : Frame) :
    (s.appendIngress p f).takeHead p = (match s.opState with
    | .noPower => s
    | .held => s.carryAcross p f
    | .mounting => s.bypassFrame p f
    | .bypass => s.bypassFrame p f
    | .running => s.judgeFrame p f) := by
  have h0 := ingress_of_drained h hi
  unfold State.takeHead
  have : (s.appendIngress p f).ingress.get p = [f] := by simp [State.appendIngress, h0]
  rw [this]
  have e : ({ s.appendIngress p f with ingress := (s.appendIngress p f).ingress.set p [] } : State) = s := by
    have : (s.ingress.set p (s.ingress.get p ++ [f])).set p [] = s.ingress := by
      rw [PerPort.set_set, ← h0, PerPort.set_get_self]
    show { s with ingress := (s.ingress.set p (s.ingress.get p ++ [f])).set p [] } = s
    rw [this]
  simp only [e]
  rfl

/-- A RUNNING erase is current and a suspension reason stands for it. -/
def State.reasonFresh (s : State) : Bool :=
  match s.op with
  | .erase e => decide (e.step = .running) && s.suspensionReason e.seg
  | _ => false

theorem examineReasons_of_not_fresh {s : State} (h : s.reasonFresh = false) : s.examineReasons = s := by
  unfold State.reasonFresh at h
  unfold State.examineReasons
  split
  · rename_i e he
    rw [he] at h
    split
    · rename_i hc
      simp [hc.1, hc.2] at h
    · rfl
  · rfl

/-- A reason that stands is taken up by a change of the erase step. -/
theorem not_fresh_of_examined {s : State} (h : s.examined = true) : s.reasonFresh = false := by
  have h := of_decide_eq_true h
  cases hf : s.reasonFresh with
  | false => rfl
  | true =>
    exfalso
    unfold State.reasonFresh at hf
    split at hf
    · rename_i e he
      have hc : e.step = .running ∧ s.suspensionReason e.seg = true := by simpa using hf
      have key : ∃ e', s.examineReasons.op = .erase e' ∧ e'.step ≠ .running ∧ e'.step ≠ .suspended := by
        unfold State.examineReasons
        rw [he]
        dsimp only
        rw [if_pos hc]
        unfold State.reasonAppears State.mapErase
        rw [he]
        dsimp only
        split
        · exact ⟨_, rfl, by simp, by simp⟩
        · unfold State.lookAgain
          have hr : (({ s with op := .erase { e with step := .waiting } } : State).setBank (bankOf e.seg)
              { s.bank (bankOf e.seg) with state := .suspendWait }).suspensionReason e.seg = true := by
            have := hc.2
            unfold State.suspensionReason at this ⊢
            simpa [State.bank, State.setBank, State.urgentHead] using this
          dsimp only
          rw [if_pos hr]
          exact ⟨_, rfl, by simp, by simp⟩
      obtain ⟨e', h1, h2, h3⟩ := key
      have h4 : s.examineErase.op = .erase e' := by
        unfold State.examineErase State.examineResume
        rw [h1]
        simp [h3, h1]
      rw [h, he] at h4
      cases h4
      exact h2 hc.1
    · cases hf

theorem examineReasons_of_examined {s : State} (h : s.examined = true) : s.examineReasons = s :=
  examineReasons_of_not_fresh (not_fresh_of_examined h)

/-- A frame that arrives at an idle stage of a drained unit is judged at once. -/
theorem exec_frameArrival_idle {s : State} (h : s.drained = true) (hx : s.examined = true) (hl : s.opState.linkUp = true) {p : Port}
    (hi : s.stages.get p = .idle) (f : Frame) :
    exec (.frameArrival p f) s = .next (match s.opState with
    | .running => ((s.count p .received).judgeFrame p f).settle
    | _ => ((s.count p .received).bypassFrame p f).settle) := by
  have h0 := ingress_of_drained h hi
  have hr : s.arrive p f = (s.count p .received).appendIngress p f := by
    simp [State.arrive, State.ingressRoom, h0, Config.ingressCapacity]
  have hf : ((s.count p .received).appendIngress p f).examineReasons = (s.count p .received).appendIngress p f :=
    examineReasons_of_not_fresh (show State.reasonFresh _ = false from (not_fresh_of_examined hx :))
  have key : (s.arrive p f).settle = (((s.count p .received).appendIngress p f).takeHead p).settle := by
    rw [hr, settle_takes (nextTaker_appended (s := s.count p .received) h hi f), hf]
  have k2 := takeHead_appended (s := s.count p .received) h hi f
  have ho : (s.count p .received).opState = s.opState := rfl
  rw [ho] at k2
  rw [k2] at key
  simp only [exec, execFrameArrival]
  cases hop : s.opState <;> simp only [hop] at * <;> first | (cases hl; done) | (rw [key])

/-- A stage that becomes busy leaves a drained state drained. -/
theorem drained_setStage {s : State} (h : s.drained = true) (p : Port) {g : Stage} (hg : g ≠ .idle) : (s.setStage p g).drained = true := by
  rw [State.drained_iff] at *
  intro q
  have := h q
  unfold State.takes State.setStage at *
  by_cases e : q = p
  · subst e; simp [hg]
  · simpa [PerPort.get_set_other _ _ e] using this

end Sys2Proof.Machine
end

