-- ==== Sys2Proof/Laws/Engine.lean ====
section
/-! SUPPORT. The operations of the banks leave the current operation alone unless it is an erase, whose record a grant changes. -/

namespace Sys2Proof.Machine

/-- The current operation is not a route erase. -/
def State.noErase (s : State) : Prop :=
  ∀ e, s.op ≠ .erase e

theorem op_mapErase {s : State} (h : s.noErase) (f : EraseRec → EraseRec) : (s.mapErase f).op = s.op := by
  unfold State.mapErase
  split
  · rename_i e he
    exact absurd he (h e)
  · rfl

theorem op_startHead (s : State) (b : Bank) : (s.startHead b).op = s.op := by
  unfold State.startHead
  split
  · split <;> rfl
  · rfl

theorem op_grant {s : State} (h : s.noErase) (b : Bank) (c : Claim) : (s.grant b c).op = s.op := by
  cases c with
  | program p => rfl
  | erase g => exact op_mapErase (s := s.setBank b _) h _
  | resume g => exact op_mapErase (s := s.setBank b _) h _
  | read t => rfl

theorem op_makeClaim {s : State} (h : s.noErase) (b : Bank) (c : Claim) : (s.makeClaim b c).op = s.op := by
  have key : (if (s.bank b).waiting = 0 then (s.setBank b ((s.bank b).claimed c)).grant b c
      else (s.setBank b { (s.bank b).claimed c with state := .draining }).startHead b).op = s.op := by
    split
    · exact op_grant (s := s.setBank b _) h b c
    · exact op_startHead _ b
  unfold State.makeClaim
  split <;> first | rfl | exact key

theorem op_release {s : State} (h : s.noErase) (b : Bank) : (s.release b).op = s.op := by
  unfold State.release
  split
  · exact op_startHead _ b
  · split
    · exact op_grant h b _
    · exact op_startHead _ b

theorem op_claimProgram {s : State} (h : s.noErase) (p : Program) : (s.claimProgram p).op = s.op := by
  unfold State.claimProgram
  dsimp only
  split
  · exact op_makeClaim h _ _
  · split
    · exact op_makeClaim h _ _
    · rfl
  · rfl
  · rfl

theorem op_countInUse (s : State) (a : SlotAddr) (w : SlotWrite) (pass : Bool) : (s.countInUse a w pass).op = s.op := by
  unfold State.countInUse
  dsimp only
  split <;> first | rfl | (split <;> rfl)

theorem op_releaseProgram {s : State} (h : s.noErase) (j : Job) : (s.releaseProgram j).op = s.op := by
  unfold State.releaseProgram
  dsimp only
  split
  · exact op_release h _
  · split
    · exact op_release h _
    · rfl
  · rfl
  · rfl

/-- The end of a program leaves the current operation alone, unless it is an erase. -/
theorem op_endProgram {s : State} (h : s.noErase) (p : Program) (pass : Bool) : (s.endProgram p pass).op = s.op := by
  unfold State.endProgram
  dsimp only
  have key : ∀ x : State, x.op = s.op →
      (({ x with store := x.store.programmed p.job pass, program := none } : State).releaseProgram p.job).op = s.op := by
    intro x hx
    refine (op_releaseProgram ?_ _).trans hx
    intro e he
    exact h e (hx ▸ he)
  split
  · split
    · exact key s rfl
    · exact key _ (op_countInUse _ _ _ _)
  · exact key s rfl

/-- The end of a program leaves the batch being written alone. -/
theorem batch_endProgram {s : State} {b : Batch} (h : s.batch? = some b) (p : Program) (pass : Bool) :
    (s.endProgram p pass).batch? = some b := by
  have hn : s.noErase := by
    intro e he
    unfold State.batch? at h
    rw [he] at h
    cases h
  unfold State.batch? at h ⊢
  rw [op_endProgram hn]
  exact h

/-! ## A current erase stays one -/

/-- The current operation is a route erase. -/
def State.isErase (s : State) : Prop :=
  ∃ e, s.op = .erase e

theorem isErase_mapErase {s : State} (h : s.isErase) (f : EraseRec → EraseRec) : (s.mapErase f).isErase := by
  obtain ⟨e, he⟩ := h
  unfold State.mapErase
  rw [he]
  exact ⟨_, rfl⟩

theorem isErase_startHead {s : State} (h : s.isErase) (b : Bank) : (s.startHead b).isErase := by
  obtain ⟨e, he⟩ := h
  exact ⟨e, (op_startHead s b).trans he⟩

theorem isErase_grant {s : State} (h : s.isErase) (b : Bank) (c : Claim) : (s.grant b c).isErase := by
  cases c with
  | program p => exact h
  | erase g => exact isErase_mapErase (s := s.setBank b _) h _
  | resume g => exact isErase_mapErase (s := s.setBank b _) h _
  | read t => exact h

theorem isErase_release {s : State} (h : s.isErase) (b : Bank) : (s.release b).isErase := by
  unfold State.release
  split
  · exact isErase_startHead (s := s.setBank b _) h b
  · split
    · exact isErase_grant h b _
    · exact isErase_startHead (s := s.setBank b _) h b

theorem isErase_releaseErase {s : State} (h : s.isErase) (b : Bank) : (s.releaseErase b).isErase := by
  unfold State.releaseErase
  dsimp only
  split <;> first | exact h | exact isErase_release (s := s.setBank b _) h b

theorem isErase_withdrawClaim {s : State} (h : s.isErase) (b : Bank) : (s.withdrawClaim b).isErase := by
  unfold State.withdrawClaim
  dsimp only
  split
  · exact isErase_release (s := s.setBank b _) h b
  · exact h

/-- The end of a current erase leaves the engine IDLE and nothing else changed. -/
theorem discardErase_of_isErase {s : State} (h : s.isErase) : s.discardErase = { s with op := .idle } := by
  obtain ⟨e, he⟩ := h
  unfold State.discardErase
  rw [he]
  rfl

end Sys2Proof.Machine
end

