-- ==== Sys2Proof/Laws/Programs.lean ====
section
/-! SUPPORT. What the end of a program leaves in the store and in the index. -/

namespace Sys2Proof.Machine

theorem store_countInUse (s : State) (a w pass) : (s.countInUse a w pass).store = s.store := by
  unfold State.countInUse; dsimp only; split <;> first | rfl | (split <;> rfl)

theorem store_releaseProgram (s : State) (j) : (s.releaseProgram j).store = s.store := by
  unfold State.releaseProgram; dsimp only
  split
  · exact (sameOutside_release _ _).store
  · split
    · exact (sameOutside_release _ _).store
    · rfl
  · rfl
  · rfl

theorem store_endProgram (s : State) (p : Program) (pass : Bool) : (s.endProgram p pass).store = s.store.programmed p.job pass := by
  unfold State.endProgram; dsimp only
  rw [store_releaseProgram]
  dsimp only
  split
  · split
    · rfl
    · rw [store_countInUse]
  · rfl

theorem index_countInUse (s : State) (a w pass) : (s.countInUse a w pass).index = s.index := by
  unfold State.countInUse; dsimp only; split <;> first | rfl | (split <;> rfl)
theorem index_releaseProgram (s : State) (j) : (s.releaseProgram j).index = s.index := by
  unfold State.releaseProgram; dsimp only
  split
  · exact (sameOutside_release _ _).index
  · split
    · exact (sameOutside_release _ _).index
    · rfl
  · rfl
  · rfl
theorem index_endProgram (s : State) (p : Program) (pass : Bool) : (s.endProgram p pass).index = s.index := by
  unfold State.endProgram; dsimp only
  rw [index_releaseProgram]
  dsimp only
  split
  · split
    · rfl
    · rw [index_countInUse]
  · rfl

/-- The completion of a program issued in a role. -/
theorem completes_of_program (s : State) (p : Program) (h : s.program = some p) (pass) : s.completes p.role pass = (((s.endProgram p pass).afterProgram p.role pass).engineNext).settle := by
  simp [State.completes, h, State.finishProgram]

end Sys2Proof.Machine
end

