-- ==== Sys2Proof/Laws/Requests.lean ====
section
/-! SUPPORT. What the screens of dispatch come to, said once for all kinds. -/

namespace Sys2Proof.Machine

/-- Every kind is the kind of its code. -/
theorem kindOf_code (k : ReqKind) : kindOf k.code = some k := by cases k <;> rfl

/-- A request with the link up, not turned away by MOUNTING and not in progress, meets the remaining screens. -/
theorem receive_known {s : State} {k : ReqKind} {p : Port} {tag : Byte} {ps : List Byte} (hl : s.opState.linkUp = true)
    (hm : s.opState = .mounting → k = .status) (hi : s.inProgress ⟨p, tag⟩ = false) :
    s.receive k p tag ps = (s.screenKnown k ⟨p, tag⟩ ps).settle := by
  unfold State.receive State.dispatch State.refusedMounting
  have : (decide (s.opState = .mounting) && decide (kindOf k.code ≠ some .status)) = false := by
    rw [kindOf_code]
    by_cases h : s.opState = .mounting
    · simp [hm h]
    · simp [h]
  simp only [hl, if_true, this, hi]
  simp [kindOf_code]

/-- What the first two screens say. -/
theorem admitsRead_iff {s : State} {o : Origin} (h : s.admitsRead o = true) : s.opState.linkUp = true ∧ (s.opState ≠ .mounting) ∧ s.inProgress o = false := by
  unfold State.admitsRead at h
  simp at h
  rcases h with ⟨h | h, h2⟩ <;> simp [h, h2, OpState.linkUp]

/-- A request that passes the first two screens meets the remaining ones. -/
theorem receive_read {s : State} {k : ReqKind} {p : Port} {tag : Byte} {ps : List Byte} (h : s.admitsRead ⟨p, tag⟩ = true) :
    s.receive k p tag ps = (s.screenKnown k ⟨p, tag⟩ ps).settle :=
  have h := admitsRead_iff h
  receive_known h.1 (fun e => absurd e h.2.1) h.2.2

/-- A state-changing request that passes every screen is carried out. -/
theorem receive_change {s : State} {k : ReqKind} {p : Port} {tag : Byte} {ps : List Byte} (h : s.admits ⟨p, tag⟩ = true)
   (hk : stateChanging k ps = true) (hg : lengthGood k ps = true) :
    s.receive k p tag ps = (s.perform k ⟨p, tag⟩ ps).settle := by
  unfold State.admits at h
  simp at h
  rw [receive_read h.1]
  simp [State.screenKnown, hk, h.2, hg]

/-- Every request but STATUS is refused while MOUNTING. -/
theorem receive_mounting {s : State} {k : ReqKind} {p : Port} {tag : Byte} {ps : List Byte} (h : s.opState = .mounting) (hk : k ≠ .status) :
    s.receive k p tag ps = (s.replyRead ⟨p, tag⟩ k.code .notRunning []).settle := by
  unfold State.receive State.dispatch State.refusedMounting
  simp [h, OpState.linkUp, kindOf_code, hk]

/-- A reply leaves a drained state drained. -/
theorem settle_replyRead {s : State} (h : s.drained = true) (o k st rs) : (s.replyRead o k st rs).settle = (s.replyRead o k st rs).examineErase :=
  settle_drained (by rw [← h]; exact State.drained_congr (by simp) (by simp))
theorem settle_emitReply {s : State} (h : s.drained = true) (o k st rs a) : (s.emitReply o k st rs a).settle = (s.emitReply o k st rs a).examineErase :=
  settle_drained (by rw [← h]; exact State.drained_congr (by simp) (by simp))
theorem settle_replyStored {s : State} (h : s.drained = true) (o k st rs) : (s.replyStored o k st rs).settle = (s.replyStored o k st rs).examineErase :=
  settle_drained (by rw [← h]; exact State.drained_congr (by simp) (by simp))

end Sys2Proof.Machine
end

