-- ==== Sys2Proof/Laws/Segments.lean ====
section
/-! SUPPORT. The segment values read back, at most one OPEN segment said of any two, and the rounds of the start rule. -/

namespace Sys2Proof.Machine

theorem segs_of_canonical {s : State} (h : s.canonical = true) : tableWf SegVol.noValue s.segs = true := by
  simp [State.canonical] at h; exact h.2

/-- What a segment holds after one has been replaced. -/
theorem seg_setSeg {s : State} (hc : tableWf SegVol.noValue s.segs = true) (g x : Nat) (v : SegVol)  :
   (s.setSeg g v).seg x = if x = g then v else s.seg x := by
  unfold State.seg State.setSeg
  exact tableGet_tablePut g x v hc

theorem segIs_setSeg {s : State} (hc : tableWf SegVol.noValue s.segs = true) (g x : Nat) (v : SegVol) (y : SegState) :
   (s.setSeg g v).segIs x y = if x = g then decide (v.state = some y) else s.segIs x y := by
  unfold State.segIs
  rw [seg_setSeg hc]
  split <;> rfl

/-- The first of a range with a property that only one has is that one. -/
theorem find_range (f : Nat → Bool) (n g : Nat) (hg : g < n) (hf : f g = true) (hu : ∀ x, x < n → f x = true → x = g) :
    (List.range n).find? f = some g := by
  cases h : (List.range n).find? f with
  | none => simp at h; exact absurd hf (by simp [h g hg])
  | some y =>
    have h1 := List.find?_some h
    have h2 := List.mem_of_find?_eq_some h
    simp at h2
    rw [hu y h2 h1]

/-- At most one route segment is OPEN, said of any two. -/
theorem atMostOneOpen_iff (s : State) : s.atMostOneOpen = true ↔ ∀ x y, x < 32 → y < 32 → s.segIs x .opened = true → s.segIs y .opened = true → x = y := by
  unfold State.atMostOneOpen State.openSeg
  simp only [List.all_eq_true, List.mem_range, Bool.or_eq_true, Bool.not_eq_true', Config.routeSegments]
  constructor
  · intro h x y hx hy ox oy
    have h1 := h x hx; have h2 := h y hy
    rw [ox] at h1; rw [oy] at h2
    simp only [Bool.true_eq_false, false_or] at h1 h2
    have h1 := of_decide_eq_true h1; have h2 := of_decide_eq_true h2
    rw [h1] at h2; injection h2
  · intro h x hx
    by_cases o : s.segIs x .opened = true
    · right; exact decide_eq_true (find_range _ 32 x hx o (fun z hz oz => h z x hz hx oz o))
    · left; simpa using o

/-- The OPEN segment is a route segment and OPEN. -/
theorem openSeg_some {s : State} {o : Nat} (h : s.openSeg = some o) : o < 32 ∧ s.segIs o .opened = true := by
  unfold State.openSeg at h
  have h1 := List.find?_some h
  have h2 := List.mem_of_find?_eq_some h
  simp [Config.routeSegments] at h2
  exact ⟨h2, h1⟩

/-! ## The start rule -/

/-- No operation of the engine lengthens the Request Queue. -/
theorem queueLength_engine (n : Nat) : StableEngine (fun s => s.queue.length ≤ n) where
  toStableWork := StableWork.ofWork (fun _ _ _ _ _ _ _ h => h)
  setSeg _ _ _ _ h := h
  allocate s g h := by unfold State.allocate; split <;> exact h
  openConfigSegment s g h := by
    unfold State.openConfigSegment
    split
    · split <;> exact h
    · exact h
  setAllSegments s m h := by
    have e : ∀ (l : List Nat) (x : State),
        (l.foldl (fun acc g => acc.setSegFill g (if g < Config.routeSegments then m.routeState g else m.cfgState g)
          (if m.stamped g then m.fill g else 0)) x).queue = x.queue := by
      intro l
      induction l with
      | nil => intro x; rfl
      | cons y l ih => intro x; exact ih _
    exact (congrArg List.length (e _ s)).symm ▸ h
  programmed _ _ _ h := h
  erasedCfg _ _ h := h
  torn _ _ h := h
  setPosition _ _ _ h := h
  resolved _ _ _ _ h := h
  dequeued _ _ hq h := Nat.le_trans hq h
  issue _ _ h := h
  addFault s r h := by simpa using h
  placeReply _ _ _ h := by simpa using h
  remember _ _ _ _ _ h := h
  config _ _ h := h
  opState _ _ _ h := h
  internalReset _ h := Nat.zero_le _

/-- Rounds of the start rule beyond the length of the queue change nothing. -/
theorem runStart_enough (n : Nat) : ∀ (m : Nat) (s : State), s.queue.length < n → n ≤ m → State.runStart m s = State.runStart n s := by
  induction n with
  | zero => intro m s h; omega
  | succ n ih =>
    intro m s h hm
    obtain ⟨m, rfl⟩ : ∃ k, m = k + 1 := ⟨m - 1, by omega⟩
    unfold State.runStart
    split
    · split
      · split
        · rfl
        · rename_i q qs e
          rw [e] at h; simp at h
          exact ih m _ (Nat.lt_of_le_of_lt ((queueLength_engine qs.length).startRequest (s := { s with queue := qs }) q (Nat.le_refl _)) h) (by omega)
      · split
        · rename_i q qs e
          rw [e] at h; simp at h
          split
          · exact ih m _ (Nat.lt_of_le_of_lt ((queueLength_engine qs.length).startRequest (s := { s with queue := qs }) q (Nat.le_refl _)) h) (by omega)
          · rfl
        · rfl
    · split
      · rename_i q qs _ e
        rw [e] at h; simp at h
        split
        · exact ih m _ (Nat.lt_of_le_of_lt ((queueLength_engine qs.length).startRequest (s := { s with queue := qs, suspended := _, op := .idle }) q (Nat.le_refl _)) h) (by omega)
        · rfl
      · rfl
    · rfl

end Sys2Proof.Machine
end

