-- ==== Sys2Proof/WellFormed.lean ====
section
/-! DEFINITION. Which commands are well formed: the limits on operands that the spec puts on what can reach the unit. -/

namespace Sys2Proof

/-- A request's parameters fit in a payload of 240 bytes behind the six management bytes (R144). -/
def paramsFit (params : List Byte) : Bool :=
  params.length + Config.managementBytes ≤ Config.maxPayload

/-- The parameters of a READ COUNTERS are those of the state-changing form (R151): that form is the row
READ_COUNTERS_WITH_CLEAR. -/
def isClearForm : List Byte → Bool
  | [_, flag] => flag = 1
  | _ => false

/-- A command is well formed when its request parameters fit in a frame, and a READ_COUNTERS is not of the form that
the row READ_COUNTERS_WITH_CLEAR stands for. -/
def Instr.wellFormed : Instr → Bool
  | .status _ _ ps => paramsFit ps
  | .describe _ _ ps => paramsFit ps
  | .readSlot _ _ ps => paramsFit ps
  | .readIndex _ _ ps => paramsFit ps
  | .readCounters _ _ ps => paramsFit ps && !isClearForm ps
  | .readFaults _ _ ps => paramsFit ps
  | .readConfig _ _ ps => paramsFit ps
  | .clearFaults _ _ ps => paramsFit ps
  | .stage _ _ ps => paramsFit ps
  | .unstage _ _ ps => paramsFit ps
  | .abandon _ _ ps => paramsFit ps
  | .commit _ _ ps => paramsFit ps
  | .erase _ _ ps => paramsFit ps
  | .reclaim _ _ ps => paramsFit ps
  | .setConfig _ _ ps => paramsFit ps
  | .restart _ _ ps => paramsFit ps
  | .readCountersWithClear .. | .setModeRun .. | .setModeBypass .. => true
  | .powerOn | .lossOfPower | .resetAssertion | .resetRelease | .guardReleaseChange .. => true
  | .frameArrival .. | .lookupReadCompletion .. | .readSlotCompletion .. | .sourceReadCompletion .. => true
  | .holdTimerExpiry .. | .lineTransmissionCompletion .. | .tapTransmissionCompletion => true
  | .programDeadlineExpiry | .writeProgramCompletion .. | .sealProgramCompletion .. => true
  | .settleProgramCompletion .. | .voidProgramCompletion .. | .stampProgramCompletion .. => true
  | .eraseCompletion .. | .suspendCompletion .. | .stopCompletion .. => true
  | .eraseTimeoutExpiry | .runIntervalTimerExpiry | .idleTimerExpiry | .restartDrainExpiry => true
  | .configEraseCompletion | .configStampCompletion .. | .configEraseTimeout | .configStopCompletion => true
  | .configWriteCompletion .. | .configVoidCompletion .. => true
  | .headerReadCompletion .. | .slotScanReadCompletion .. | .repairProgramCompletion .. => true

end Sys2Proof
end

