-- ==== Sys2Proof/Tests/Slice0.lean ====
section
/-! SUPPORT. The model's own tests: ill-formed commands are refused, a few commands from small states, the check word the spec
gives, and for every statement a state and operands that meet its hypotheses, clause by clause. -/

namespace Sys2Proof.Tests

open Sys2Proof Sys2Proof.Machine

/-! ## Ill-formed commands -/

theorem test_longParametersAreIllFormed :
    (Instr.stage .east 1 (List.replicate 234 0)).wellFormed = true ∧
      (Instr.stage .east 1 (List.replicate 235 0)).wellFormed = false := by decide +kernel
theorem test_everyRequestWithParametersIsChecked :
    [Instr.status .tap 1 (List.replicate 235 0), .describe .tap 1 (List.replicate 235 0), .readSlot .tap 1 (List.replicate 235 0),
      .readIndex .tap 1 (List.replicate 235 0), .readCounters .tap 1 (List.replicate 235 0),
      .readFaults .tap 1 (List.replicate 235 0), .readConfig .tap 1 (List.replicate 235 0),
      .clearFaults .tap 1 (List.replicate 235 0), .unstage .tap 1 (List.replicate 235 0), .abandon .tap 1 (List.replicate 235 0),
      .commit .tap 1 (List.replicate 235 0), .erase .tap 1 (List.replicate 235 0), .reclaim .tap 1 (List.replicate 235 0),
      .setConfig .tap 1 (List.replicate 235 0), .restart .tap 1 (List.replicate 235 0)].all (fun c => !c.wellFormed) = true := by
  decide +kernel
theorem test_clearFormIsNotAReadCounters :
    (Instr.readCounters .east 1 [0, 1]).wellFormed = false ∧ (Instr.readCounters .east 1 [0, 0]).wellFormed = true ∧
      (Instr.readCounters .east 1 [0, 2]).wellFormed = true ∧ (Instr.readCountersWithClear .east 1 0).wellFormed = true := by
  decide
theorem test_eventsAreWellFormed :
    Instr.powerOn.wellFormed = true ∧ (Instr.eraseCompletion 0).wellFormed = true := by decide

/-! ## The check word, and words of the table -/

theorem test_checkWordOfTheSpec :
    checkWord [0x31, 0x32, 0x33, 0x34, 0x35, 0x36, 0x37, 0x38, 0x39] = 0x29B1 := by decide +kernel
theorem test_noWordSpellsACommand : decodeTableWord 32 5 = none ∧ (State.reset.withFetchWord 32 5).pending = [] := by decide

/-! ## Small states -/

/-- RUNNING with nothing going on and the issue counter at 100. -/
def base : State :=
  { State.reset with resetAsserted := false, opState := .running, issue := some 100 }

/-- The same with a current operation. -/
def atOp (x : CurrentOp) : State :=
  { base with op := x }

/-- The same with a program in progress. -/
def atProgram (x : CurrentOp) (role : ProgramRole) (j : Job) : State :=
  { atOp x with program := some ⟨role, j⟩ }

/-- The same with one bank changed. -/
def atBank (s : State) (u : BankUnit) : State :=
  s.setBank .b3 u

def org : Origin := ⟨.east, 7⟩
def plain : RouteFields := ⟨⟨true, true, false⟩, .pass, none, none⟩
def ent (ch : Nat) : Entry := ⟨ch, .route plain⟩
def gone (ch : Nat) : Entry := ⟨ch, .withdraw⟩
def last : SlotAddr := ⟨31, 63⟩
def frameOf (ch : Nat) : Frame := buildFrame ch [1]
def requestFrame (kind : Byte) (station : Nat) : Frame := buildFrame 0 (byte2 station ++ [0, 7, kind, 0])
def fault1 : FaultRecord := ⟨.voidFault, none, none, none, none, none⟩
def batch1 (step : BatchStep) : Batch := ⟨org, [ent 5, gone 6], 100, 3, 10, .write, step, [none, some last], [[], []], 0⟩
def erase1 (step : EraseStep) (held : List StopCause) : EraseRec := ⟨31, org, none, step, 0, 0, false, held⟩
def reclaim1 (stage : RelocateStage) : ReclaimRec := ⟨31, org, 0, ⟨0, 0, 0, 0⟩, false, stage⟩
def config1 (step : ConfigStep) : ConfigWrite :=
  ⟨org, ConfigRecord.default, step, some .cb, true, some 100, some ⟨33, 15⟩, 0⟩
def hand1 : InHand := ⟨frameOf 5, true, 0, last, false⟩
def queued1 : QueuedRead := ⟨last, .east, 80, false⟩
def mount1 (phase : MountPhase) : Mount :=
  ⟨phase, List.replicate 33 (some 0), last, [], [], [], []⟩
def repair1 (act : RepairAct) : Repair := ⟨last, act, some 5, some 5, some 9⟩
def segState (g : Nat) (x : SegState) (fill : Nat) : State :=
  base.setSeg g ⟨some x, some fill, some 0, some 0⟩
def stagedBy (p : Port) : State :=
  { base with staging := ⟨[ent 5], some p, true, some 1⟩ }

/-! ## A few commands -/

theorem test_resetReleaseBeginsTheMount :
    (match exec .resetRelease State.reset with
     | .next t => decide (t.opState = .mounting) && t.engineReads (.header 0)
     | _ => false) = true := by decide
theorem test_stageOfOneRouteIsAccepted :
    (match exec (.stage .east 9 [1, 1, 0, 5, 3, 1, 0, 0, 0]) base with
     | .next t => decide (t.staging.entries = [ent 5]) && decide (t.staging.owner = some .east)
     | _ => false) = true := by decide
theorem test_frameWithAFailedCheckIsCounted :
    (match exec (.frameArrival .west [0, 5, 1, 9, 0, 0]) base with
     | .next t => decide (t.counters.west.check = 1) && decide (t.counters.west.received = 1)
     | _ => false) = true := by decide +kernel
theorem test_frameWithoutARouteIsCounted :
    (match exec (.frameArrival .west (frameOf 5)) base with
     | .next t => decide (t.counters.west.noRoute = 1)
     | _ => false) = true := by decide +kernel

/-- The STAGE request on the line of section 11.6, sent to station 17 on WEST with tag 30. -/
def stageFrame (side : Byte) : Frame :=
  withCheck [0, 0, 15, 0, 17, 0, 30, 0x11, 0, 1, 1, 0, 0xD2, 5, 1, 2, 0x58, side]
def station17 : State := { base with config := { base.config with values := { base.config.values with station := 17 } } }
theorem test_stageOnTheLineIsAnswered :
    (match exec (.frameArrival .west (stageFrame 2)) station17 with
     | .next t =>
       decide (t.lineTx.west.map Outgoing.frame = some (withCheck [0, 0, 7, 0, 17, 0x80, 30, 0x11, 0, 1])) &&
         decide (t.staging.entries = [⟨210, .route ⟨⟨true, false, true⟩, .pass, some 600, some .west⟩⟩])
     | _ => false) = true := by decide +kernel
theorem test_stageWithoutATapSideIsABadEntry :
    (match exec (.frameArrival .west (stageFrame 0)) station17 with
     | .next t => decide (t.lineTx.west.map Outgoing.frame = some (withCheck [0, 0, 7, 0, 17, 0x80, 30, 0x11, 5, 1]))
     | _ => false) = true := by decide +kernel

/-! ## The hypotheses of the statements are met -/

theorem test_premises_StepRunsTheFrontCommand : State.reset.pending = [] := by decide

def waiting1 : State := { State.reset with pending := [.resetRelease] }
theorem test_premises_stepInvariants :
    waiting1.canonical = true ∧ waiting1.withinCapacity = true ∧ waiting1.staging.consistent = true ∧ waiting1.drained = true ∧
      waiting1.sendersBusy = true ∧ waiting1.atMostOneOpen = true ∧ waiting1.heldByReset = true ∧ waiting1.originsDistinct = true ∧
      waiting1.atMostOneOpenCfg = true ∧ waiting1.oneErase = true ∧ waiting1.examined = true ∧ waiting1.ordered = true ∧ waiting1.sound = true ∧
      ∃ t, step waiting1 = .next t :=
  ⟨by decide, by decide, by decide, by decide, by decide, by decide, by decide, by decide, by decide, by decide, by decide, by decide,
    by decide, ⟨_, rfl⟩⟩

/-- A segment erasing with its last slot PENDING, and the erase completion at the front of the queue. -/
def erasingNow : State :=
  { (atOp (.erase (erase1 .running []))).setSeg 31 ⟨some .erasing, some 0, some 0, some 0⟩ with
    pending := [.eraseCompletion 5]
    store := { Store.delivered with slots := [(slotKey last, .written ⟨.pending, 9, .entry (ent 5)⟩)] } }
theorem test_premises_StepMovesSlots :
    erasingNow.canonical = true ∧ erasingNow.oneErase = true ∧
      (match step erasingNow with
       | .next t => decide (erasingNow.store.slot last ≠ .blank) && decide (t.store.slot last = .blank)
       | _ => false) = true := by decide

/-- Channel 5 at a PENDING ROUTE sealed by the slot after it. -/
def indexed : State :=
  { base with
    index := [(5, some ⟨1, 62⟩)]
    store :=
      { Store.delivered with
        slots := [(slotKey ⟨1, 62⟩, .written ⟨.pending, 9, .entry (ent 5)⟩), (slotKey ⟨1, 63⟩, .written ⟨.live, 9, .seal 1⟩)] } }
theorem indexed_position {ch : Nat} {a : SlotAddr} (h : indexed.position ch = some a) : ch = 5 ∧ a = ⟨1, 62⟩ := by
  unfold State.position indexed at h
  by_cases e : ch = 5
  · subst e; exact ⟨rfl, (Option.some.inj h).symm⟩
  · simp [tableGet, e] at h
theorem indexed_good : indexed.indexGood := by
  intro ch a h
  obtain ⟨rfl, rfl⟩ := indexed_position h
  decide
/-- The same at the promotion of that ROUTE: its segment FILLED to 64, an OPEN one filled to 63, a configuration segment to 16, the
issue counter at its end; the bank of the slot is DRAINING for the promotion with a READ SLOT in flight and three counted reads. -/
def settlingNow : State :=
  { (((({ indexed with issue := some 4294967295 } : State).setSeg 1 ⟨some .filled, some 64, some 1, some 0⟩).setSeg 31
      ⟨some .opened, some 63, some 0, some 0⟩).setSeg 33 ⟨some .opened, some 16, none, some 0⟩).setBank .b0
      { BankUnit.reset with
        state := .draining, inFlight := some ⟨.slot ⟨7, 0⟩, .readSlot org, true⟩, marker := 4
        queue := [⟨⟨1, 62⟩, .east, 80, true⟩, ⟨⟨1, 62⟩, .tap, 80, true⟩, ⟨⟨1, 62⟩, .west, 80, true⟩]
        claim := some (.program ⟨.settle, .slot ⟨1, 62⟩ .promote⟩) } with
    op := .commit ⟨org, [ent 5], 9, 1, 62, .settle, .settle 0 .promote, [none], [[]], 0⟩
    stages := ⟨.waitBank waits, .waitBank waits, .waitBank waits⟩
    pending := [.readSlotCompletion .b0 false] }
where waits : InHand := { hand1 with addr := ⟨1, 62⟩ }
theorem test_premises_StepKeepsTheIndexOnTheStore :
    settlingNow.ordered = true ∧ settlingNow.sound = true ∧
      (match step settlingNow with
       | .next t => decide ((t.bank .b0).marker = 3) && t.sound
       | _ => false) = true := by decide +kernel
/-- The same with the promotion in progress, and an erase at work in its bank. -/
def promotingNow : State :=
  { settlingNow.setBank .b0
      { BankUnit.reset with
        state := .programming, queue := [⟨⟨1, 62⟩, .east, 80, false⟩, ⟨⟨1, 62⟩, .tap, 80, false⟩, ⟨⟨1, 62⟩, .west, 80, false⟩] } with
    program := some ⟨.settle, .slot ⟨1, 62⟩ .promote⟩ }
def erasingBank : State := erasingNow.setBank .b3 { BankUnit.reset with state := .eraseRunning }
theorem test_premises_StepKeepsTheBanksInOrder :
    promotingNow.sound = true ∧ (promotingNow.bank .b0).state = .programming ∧ erasingBank.sound = true ∧
      (erasingBank.bank .b3).state = .eraseRunning := by decide +kernel
/-- The erase at SUSPENDED, its bank ERASE_SUSPENDED, and a read of its segment for which a stage waits behind one in flight. -/
def suspendedNow : State :=
  { (atOp (.erase (erase1 .suspended []))).setSeg 31 ⟨some .erasing, some 0, some 0, some 0⟩ with
    banks :=
      { base.banks with
        b3 := { BankUnit.reset with
          state := .eraseSuspended, suspended := some 31, queue := [⟨⟨24, 0⟩, .east, 80, false⟩],
          inFlight := some ⟨.slot last, .readSlot org, false⟩ } }
    stages := { base.stages with east := .waitBank { hand1 with addr := ⟨24, 0⟩ } }
    pending := [.readSlotCompletion .b3 false] }
theorem test_premises_StepKeepsTheBanksInOrder_suspended :
    suspendedNow.sound = true ∧ (suspendedNow.bank .b3).suspended = some 31 ∧ suspendedNow.readSlotResult last false = .unreadable ∧
      suspendedNow.readSlotResult ⟨24, 0⟩ false = .blank ∧ indexed.readSlotResult ⟨1, 62⟩ true = .marginFail ∧
      indexed.readSlotResult ⟨1, 62⟩ false = .record ⟨.pending, 9, .entry (ent 5)⟩ := by decide +kernel
/-- The batch whose seal has just passed: its one ROUTE in the slot below the seal. -/
def sealedNow : Batch := { batch1 .seal with entries := [ent 5], issue := 9, seg := 1, first := 62 }
theorem test_premises_IndexStays_program :
    indexed.canonical = true ∧ indexed.indexGood ∧ (⟨1, 62⟩ : SlotAddr).slot < 64 ∧ last.slot < 64 ∧
      (∀ ch : Nat, indexed.position ch ≠ some last) ∧ ∀ n k : Nat, indexed.store.slot last ≠ .written ⟨.live, n, .seal k⟩ :=
  ⟨by decide, indexed_good, by decide, by decide, (fun _ h => absurd (indexed_position h).2 (by decide)),
    fun _ _ h => by
      have e : indexed.store.slot last = .blank := by decide
      rw [e] at h; cases h⟩
theorem test_premises_IndexStays_seal :
    sealedNow.seg < 32 ∧ sealedNow.first + sealedNow.entries.length < 64 ∧
      indexed.store.slot ⟨1, 62 + 1⟩ = .written ⟨.live, 9, .seal sealedNow.entries.length⟩ ∧
      sealedNow.entries[0]? = some (ent 5) ∧ (ent 5).isRoute = true ∧
      indexed.store.slot ⟨1, 62 + 0⟩ = .written ⟨.pending, 9, .entry (ent 5)⟩ := by decide
theorem test_premises_IndexStays_position :
    (∀ (c : Nat) (a : SlotAddr), c ≠ 6 → indexed.position c = some a → indexed.store.indexable c a = true) ∧
      indexed.store.indexable 5 ⟨1, 62⟩ = true ∧ (∀ (ch : Nat) (a : SlotAddr), indexed.position ch = some a → a.seg ≠ 2) ∧
      indexed.store.wf = true :=
  ⟨(fun c a _ h => indexed_good c a h), by decide, (fun _ _ h => by rw [(indexed_position h).2]; decide), by decide⟩
theorem test_premises_IndexStays_resolve :
    tableWf .blank indexed.store.slots = true ∧ slotKey last < 2048 ∧
      tableGet .blank indexed.store.slots (slotKey ⟨1, 63⟩) = .written ⟨.live, 9, .seal 1⟩ := by decide

def dark (r : Bool) : State := { State.reset with opState := .noPower, resetAsserted := r }
theorem test_premises_Supply_comesAndGoes :
    ∀ r : Bool, (dark r).opState = .noPower ∧ (dark r).quietInside = true ∧ (dark r).suspended = none := by decide

theorem test_premises_Supply_resetAssertion :
    base.opState.linkUp = true ∧ State.reset.opState = .held ∧ State.reset.resetAsserted = true := by decide

theorem test_premises_WorkCutShort :
    (base.store.wf = true ∧ last.slot < Config.slotsPerSegment) ∧
      ((atProgram .idle .write (.slot last (.entry 1 (ent 5)))).program = some ⟨.write, .slot last (.entry 1 (ent 5))⟩) ∧
      ((atProgram .idle .stamp (.stamp 33 1)).program = some ⟨.stamp, .stamp 33 1⟩) ∧
      ((atOp (.erase (erase1 .running []))).op = .erase (erase1 .running []) ∧ (erase1 .running []).step.touchesStore = true ∧
        (erase1 .running []).seg < Config.routeSegments) ∧
      ({ base with suspended := some (erase1 .suspended []) } : State).suspended = some (erase1 .suspended []) ∧
      (erase1 .suspended []).step.touchesStore = true := by decide
def cutting : State :=
  { atProgram (.configWrite { config1 .erasing with target := some .ca }) .configWrite (.cfgRecord ⟨33, 15⟩ 5 ConfigRecord.default) with
    suspended := some (erase1 .suspended []) }
theorem test_premises_WorkCutShort_rotation :
    ((atOp (.configWrite (config1 .stopping))).op = .configWrite (config1 .stopping) ∧ (config1 .stopping).target = some .cb ∧
      CfgSeg.cb.id = 33 ∧ 15 < 16) ∧
      (cutting.store.wf = true ∧ (cutting.program.map Program.job) = some (.cfgRecord ⟨33, 15⟩ 5 ConfigRecord.default)) ∧
      (cutting.suspended.map EraseRec.seg) = some 31 ∧ (erase1 .suspended []).step ≠ .claimed ∧
      (erase1 .suspended []).step ≠ .stamping ∧ (erase1 .claimed []).step = .claimed := by decide
/-- What the clause on everything else asks of it, and slots, a configuration slot and a header that it then speaks of. -/
theorem test_premises_WorkCutShort_theRest :
    (∀ (p : Program) (x : SlotAddr) (w : SlotWrite), cutting.program = some p → p.job = .slot x w → x.slot < 64) ∧
      (∀ e : EraseRec, cutting.op = .erase e ∨ cutting.suspended = some e → e.seg < 32) ∧
      (∀ e : EraseRec, cutting.op = .erase e ∨ cutting.suspended = some e → e.seg ≠ 30) ∧
      ∀ (w : ConfigWrite) (c : CfgSeg), cutting.op = .configWrite w → w.target = some c → c.id ≠ 33 := by
  refine ⟨fun p x w h j => ?_, fun e h => ?_, fun e h => ?_, fun w c h k => ?_⟩
  · cases h; cases j
  · rcases h with h | h
    · cases h
    · cases h; decide
  · rcases h with h | h
    · cases h
    · cases h; decide
  · cases h; cases k; decide
theorem test_premises_WorkCutShort_nothing :
    base.program = none ∧ base.suspended = none ∧ (∀ e, base.op ≠ .erase e) ∧ ∀ w, base.op ≠ .configWrite w :=
  ⟨rfl, rfl, (fun _ h => by cases h), (fun _ h => by cases h)⟩

theorem test_premises_Supply_resetRelease :
    State.reset.opState = .held ∧ State.reset.quietInside = true ∧ State.reset.ingress = State.reset.ingress := by decide

def sending (n k : Nat) : State :=
  { base with
    lineTx := ⟨some ⟨[], false⟩, some ⟨[], false⟩⟩
    tapTx := some ⟨[], false⟩
    traffic := ⟨List.replicate n [], List.replicate n []⟩
    replies := ⟨List.replicate k ⟨[], false⟩, List.replicate k ⟨[], false⟩⟩
    delivery := List.replicate (n + n) ⟨[], false⟩ }
theorem test_premises_EgressFifos :
    base.sendersBusy = true ∧ (sending 15 3).sendersBusy = true ∧ (sending 16 4).sendersBusy = true ∧
      (sending 15 3).traffic.east.length < 16 ∧ ¬ (sending 16 4).traffic.east.length < 16 ∧
      (sending 15 3).replies.west.length < 4 ∧ ¬ (sending 16 4).replies.west.length < 4 ∧
      (sending 15 3).delivery.length < 32 ∧ ¬ (sending 16 4).delivery.length < 32 := by decide

def faulted (n ov : Nat) : State := { base with faults := List.replicate n fault1, overflow := ov }
theorem test_premises_RepliesAndFaults :
    (faulted 0 0).faults.length < 8 ∧ (faulted 7 0).faults.length < 8 ∧
      (faulted 8 254).faults = fault1 :: List.replicate 7 fault1 ∧ (List.replicate 7 fault1).length = 7 ∧
      (faulted 8 254).overflow < 255 ∧ ¬ (faulted 8 255).overflow < 255 := by decide

def busyBank : BankUnit := { BankUnit.reset with queue := [queued1] }
def urgent1 : QueuedRequest := ⟨org, .commit [ent 5]⟩
/-- Frames waiting for idle stages, and the stages that take them. -/
def waitingFrames (e w t : List Frame) : State := { base with ingress := ⟨e, w, t⟩ }
theorem test_premises_EndOfAnEvent_takesHeads :
    (waitingFrames [frameOf 5] [frameOf 6] [frameOf 7]).nextTaker = some .east ∧
      (waitingFrames [frameOf 5] [frameOf 6] [frameOf 7]).ingress.get .east = frameOf 5 :: [] ∧
      (waitingFrames [] [frameOf 6, frameOf 5] [frameOf 7]).nextTaker = some .west ∧ (waitingFrames [] [] [frameOf 7]).nextTaker = some .tap ∧
      (waitingFrames [] [] []).drained = true ∧ (erase1 .running []).step = .running ∧
      ({ waitingFrames [] [frameOf 6, frameOf 5] [frameOf 7] with opState := .bypass } : State).settle.lineTx.east = some ⟨frameOf 6, false⟩ := by
  decide +kernel
theorem test_premises_EndOfAnEvent :
    base.drained = true ∧
      ((atOp (.erase (erase1 .running []))).bank .b3).queue = [] ∧ (atOp (.erase (erase1 .running []))).urgentHead = false ∧
      ((atBank (atOp (.erase (erase1 .running []))) busyBank).bank (bankOf 31)).queue ≠ [] ∧
      ({ atOp (.erase (erase1 .running [])) with queue := [urgent1] } : State).urgentHead = true ∧
      (erase1 .suspended []).step = .suspended ∧ (erase1 .waiting []).step ≠ .running ∧ (erase1 .waiting []).step ≠ .suspended := by
  decide

theorem test_premises_Frames :
    (4095 ≤ 4095 ∧ (List.replicate 240 (1 : Byte)).length ≤ 240 ∧ 6 ≤ (List.replicate 6 (1 : Byte)).length) ∧
      (65535 ≤ 65535 ∧ (List.replicate 234 (1 : Byte)).length ≤ 234) ∧
      ((1 ≤ 4095 ∧ 4095 ≤ 4095) ∧ 5 ≤ (frameOf 4095).length ∧ formatGood (frameOf 4095) = true) := by decide +kernel
theorem test_premises_Frames_bounds :
    formatGood [0x0F, 0xFF, 0, 1, 2] = true ∧ formatGood [0x10, 0, 0, 1, 2] = false ∧ formatGood [0, 0, 5, 1, 2, 3, 4, 5, 6, 7] = false ∧
      formatGood (0 :: 1 :: 240 :: List.replicate 242 0) = true ∧ formatGood (0 :: 1 :: 241 :: List.replicate 243 0) = false := by
  decide +kernel
theorem test_premises_ReplyLayouts :
    [FaultKind.retireFault, .voidFault, .promoteFault, .voidFault].length ≤ 4 ∧
      settleItems [ent 5, gone 6] [[], [.retireFault]] = [[0, 6, 1, 1, 4, 0, 0, 0]] := by decide
theorem test_premises_Images :
    ([1, 2] : List Byte).length ≠ 8 ∧ (List.replicate 16 (0 : Byte)).length = 8 * 2 ∧ (List.replicate 8 (0 : Byte)).length ≠ 9 ∧
      entryOf [1, 0x0F, 0xFF, 5, 3, 0x0F, 0xFF, 2] = some ⟨4095, .route ⟨⟨true, false, true⟩, .passAndDeliver, some 4095, some .west⟩⟩ ∧
      entryOf [1, 0x10, 0, 5, 3, 0, 0, 2] = none ∧ entryOf [2, 0, 1, 0, 0, 0, 0, 0] = some (gone 1) ∧
      firstDuplicate 1 [9] [ent 5, gone 5, ent 9] = some 2 := by decide
theorem test_premises_EndOfAnEvent_noErase : ∀ e, base.op ≠ .erase e := fun _ h => by cases h

def mounting1 : State := { base with opState := .mounting, op := .mount Mount.start }
def replied1 : State := { base with memory := { base.memory with east := some ⟨7, 0x11, 0, [1]⟩ } }
theorem test_premises_DispatchScreens :
    requestOf (.stage .east 7 [1]) = some (.stage, org, [1]) ∧ requestOf (.status .east 7 [1]) = some (.status, org, [1]) ∧
      State.reset.opState.linkUp = false ∧ State.reset.drained = true ∧
      (mounting1.opState = .mounting ∧ ReqKind.stage ≠ .status ∧ mounting1.drained = true) ∧
      ((atOp (.commit (batch1 .seal))).inProgress org = true ∧ (atOp (.commit (batch1 .seal))).opState.linkUp = true) ∧
      (base.inProgress org = false ∧ stateChanging .stage [1] = true) ∧
      (replied1.inProgress org = false ∧ replied1.storedReply org = some ⟨7, 0x11, 0, [1]⟩) ∧
      (base.storedReply org = none ∧ lengthGood .stage [1] = false) ∧
      (stateChanging .status [1] = false ∧ lengthGood .status [1] = false) := by decide

theorem test_premises_reads :
    base.drained = true ∧ base.admitsRead org = true ∧ base.admits org = true ∧ base.opState.linkUp = true ∧
      base.inProgress org = false ∧ mounting1.drained = true ∧ mounting1.opState = .mounting ∧ mounting1.opState.linkUp = true ∧
      mounting1.inProgress org = false ∧ (0 : Byte) ≠ 1 ∧ (2 : Byte) ≠ 1 ∧ portOf 3 = some .tap ∧ portOf 4 = none := by decide
theorem test_premises_ReadIndex_bounds :
    (1 ≤ 4064 ∧ 4064 + 32 - 1 ≤ 4095) ∧ ¬ (4065 + 32 - 1 ≤ 4095) ∧ (4095 + 1 - 1 ≤ 4095) := by decide
theorem test_premises_ReadSlots_start :
    (base.bank .b3).queue = [] ∧ (base.bank .b3).inFlight = none ∧ (base.bank .b3).state = .free ∧
      ((atBank base busyBank).bank .b3).queue ≠ [] := by decide
def cleared1 : State := { base with memory := { base.memory with east := some ⟨7, 0x10, 0x00, [1, 0]⟩ } }
theorem test_premises_ReadAndClearFaults :
    cleared1.admitsRead org = true ∧ cleared1.memory.get .east = some ⟨7, 0x10, 0x00, [1, 0]⟩ := by decide
theorem test_premises_UnstageAndIdleTimer_unstage :
    base.staging.consistent = true ∧ base.staging.entries = [] ∧
      ((stagedBy .east).staging.consistent = true ∧ (stagedBy .east).admits org = true ∧ (stagedBy .east).drained = true ∧
        (stagedBy .east).staging.owner = some .east) ∧
      ((stagedBy .tap).staging.consistent = true ∧ (stagedBy .tap).admits org = true ∧
        (stagedBy .tap).staging.owner ≠ some .east) := by decide
theorem test_premises_Stage :
    (List.replicate 0 (0 : Byte)).length = 8 * (0 : Byte).toNat ∧ (List.replicate 8 (0 : Byte)).length = 8 * (1 : Byte).toNat ∧
      (List.replicate 64 (0 : Byte)).length = 8 * (8 : Byte).toNat ∧ (List.replicate 72 (0 : Byte)).length = 8 * (9 : Byte).toNat := by
  decide

def inHand (g : Stage) : State := base.setStage .east g
theorem test_premises_SetMode :
    base.opState = .running ∧ ({ base with opState := .bypass } : State).admits org = true ∧
      (inHand (.reading hand1)).stages.get .east = .reading hand1 ∧ (inHand (.waitBank hand1)).stages.get .east = .waitBank hand1 ∧
      base.stages.get .west = .idle := by decide +kernel

def recordBytes : List Byte := [0, 9, 80, 0, 0, 1, 0, 0, 1]
theorem test_premises_QueuedKinds :
    base.admits org = true ∧ (stagedBy .east).admits org = true ∧ (31 : Byte).toNat < 32 ∧ 32 ≤ (32 : Byte).toNat ∧
      (configImageOf recordBytes).isSome = true ∧
      ({ base with queue := List.replicate 8 urgent1 } : State).queue.length = 8 ∧
      ({ base with queue := List.replicate 8 ⟨⟨.tap, 1⟩, .restart⟩ } : State).admits org = true := by decide

def behind : QueuedRequest := ⟨org, .restart⟩
def holding (qs : List QueuedRequest) : State := { base with suspended := some (erase1 .suspended []), queue := qs }
def erasing (qs : List QueuedRequest) : State := { atOp (.erase (erase1 .suspended [])) with queue := qs }
theorem test_premises_EngineStarts :
    (base.op = .idle ∧ base.suspended = none ∧ base.queue = []) ∧
      (({ base with queue := [behind] } : State).queue = behind :: [] ∧ ({ base with queue := [behind] } : State).suspended = none) ∧
      ((holding [urgent1]).queue = urgent1 :: [] ∧ urgent1.kind.urgent = true) ∧
      ((holding [behind]).urgentHead = false ∧ (holding []).urgentHead = false ∧
        (holding []).suspended = some (erase1 .suspended [])) ∧
      ((erasing [urgent1]).op = .erase (erase1 .suspended []) ∧ (erasing [urgent1]).queue = urgent1 :: []) ∧
      (erasing [behind]).urgentHead = false := by decide
theorem test_premises_EngineStarts_goesOn :
    (atOp (.commit (batch1 .seal))).op ≠ .idle ∧
      ∀ e, (atOp (.commit (batch1 .seal))).op = .erase e → e.step ≠ .suspended :=
  ⟨by decide, fun _ h => by cases h⟩

theorem test_premises_Allocation :
    (segState 31 .clean 0).allocatable = some 31 ∧ base.allocatable = none ∧ (segState 31 .opened 62).atMostOneOpen = true ∧
      (segState 31 .opened 62).placement 2 = .inOpen ∧ (segState 31 .opened 63).placement 2 = .noRoom ∧
      (segState 31 .clean 0).placement 2 = .inFresh 31 := by decide

def guarded1 : State := { base with config := { base.config with values := { base.config.values with guardHigh := 9 } } }
theorem test_premises_CommitStarts :
    base.canonical = true ∧ base.atMostOneOpen = true ∧
      (guarded1.guardRelease = false ∧ firstGuarded guarded1.config.values [ent 5] = some 5 ∧ guarded1.canonical = true) ∧
      (firstGuarded base.config.values [ent 5] = none ∧ base.placement 2 = .noRoom) ∧
      ((segState 31 .opened 62).placement 2 = .inOpen ∧ (segState 31 .opened 62).openSeg = some 31 ∧
        (segState 31 .opened 62).canonical = true ∧ (segState 31 .opened 62).atMostOneOpen = true) ∧
      (((segState 31 .opened 63).setSeg 0 ⟨some .clean, some 0, some 0, some 0⟩).placement 2 = .inFresh 0 ∧
        ((segState 31 .opened 63).setSeg 0 ⟨some .clean, some 0, some 0, some 0⟩).openSeg = some 31) ∧
      (base.issue = some 100 ∧ 100 < 4294967295) ∧ 4294967295 ≤ ({ base with issue := some 4294967295 } : State).issueNow := by
  decide

theorem test_premises_EraseStarts :
    base.op = .idle ∧ base.inUseOf 31 = 0 ∧ base.erasesOf 31 = 0 ∧
      (base.setSeg 31 ⟨some .filled, some 64, some 0, some 100000⟩).erasesOf 31 = 100000 ∧
      (base.setSeg 31 ⟨some .filled, some 64, some 1, some 0⟩).inUseOf 31 ≠ 0 := by decide
theorem test_premises_Restart :
    base.queue = [] ∧ ({ base with queue := [urgent1, behind] } : State).queue = urgent1 :: [behind] ∧ base.replyRoom .east = true ∧ (sending 16 4).replyRoom .east = false := by decide

def target : Origin := ⟨.east, 9⟩
def eraseOf (step : EraseStep) : EraseRec := { erase1 step [] with origin := target }
theorem test_premises_Abandon :
    (({ base with queue := [⟨target, .restart⟩] } : State).admits org = true ∧
      ({ base with queue := [⟨target, .restart⟩] } : State).queue.find? (fun x => x.origin = target) = some ⟨target, .restart⟩) ∧
      (base.queue.find? (fun x => x.origin = target) = none ∧ base.op.origin? ≠ some target ∧
        base.suspended.map EraseRec.origin ≠ some target) ∧
      (({ reclaim1 (.reading [] []) with origin := target } : ReclaimRec).origin = target ∧
        (atOp (.reclaim { reclaim1 (.reading [] []) with origin := target })).admits org = true) ∧
      ((atOp (.commit { batch1 .seal with origin := target })).op.origin? = some target ∧
        (atOp (.commit { batch1 .seal with origin := target })).admits org = true) ∧
      ((atOp (.erase (eraseOf .claimed))).admits org = true ∧ (eraseOf .claimed).origin = target ∧
        (atOp (.erase (eraseOf .stamping))).admits org = true) ∧
      (({ base with suspended := some (eraseOf .suspended) } : State).admits org = true ∧
        (eraseOf .suspended).step = .suspended) := by decide

def sources (n : Nat) : State :=
  { base with index := (List.range n).map (fun i => (i + 1, some ⟨31, i⟩)) }
theorem test_premises_Reclaim :
    ((segState 31 .opened 64).seg 31).state = some .opened ∧ ((segState 31 .faulted 64).seg 31).state = some .faulted ∧
      ((segState 31 .torn 0).seg 31).state = some .torn ∧ base.gather 31 0 = [] ∧
      (sources 17).canonical = true ∧ ((sources 17).gather 31 0).length = 16 ∧
      (sources 2).gather 31 0 = [⟨0, 1⟩] ++ [⟨1, 2⟩] ∧ (sources 17).position 17 = some ⟨31, 16⟩ ∧
      (batch1 .seal).entries[2]? = none := by decide

def full : State := { inHand (.reading hand1) with ingress := ⟨List.replicate 16 [], [], []⟩ }
theorem test_premises_Arrivals :
    ((inHand (.reading hand1)).drained = true ∧ (inHand (.reading hand1)).opState.linkUp = true ∧
      (inHand (.reading hand1)).stages.get .east ≠ .idle) ∧
      (full.drained = true ∧ ¬ (full.ingress.get .east).length < 16) ∧
      (State.reset.drained = true ∧ State.reset.opState = .held ∧ State.reset.stages.get .tap = .idle ∧
        State.reset.examined = true) ∧
      ((dark true).drained = true ∧ (dark true).opState = .noPower) := by decide

def routed : State := { base with index := [(5, some last)] }
theorem test_premises_RunningLooksUp :
    (base.drained = true ∧ base.opState = .running ∧ base.stages.get .east = .idle ∧ base.examined = true) ∧ checkGood [0, 5, 1, 9, 0, 0] = false ∧
      (checkGood (withCheck [0, 5, 2, 9]) = true ∧ formatGood (withCheck [0, 5, 2, 9]) = false) ∧
      (checkGood (frameOf 4095) = true ∧ formatGood (frameOf 4095) = true ∧ frameChannelField (frameOf 4095) ≠ 0) ∧
      base.position 4095 = none ∧ (routed.position (frameChannelField (frameOf 5)) = some last ∧ routed.drained = true) := by decide +kernel

theorem test_premises_Arrivals_repeated :
    (mounting1.drained = true ∧ mounting1.opState = .mounting ∧ mounting1.stages.get .tap = .idle ∧ mounting1.examined = true) ∧
      (({ base with opState := .bypass } : State).drained = true ∧ ({ base with opState := .bypass } : State).examined = true) ∧
      ¬ (frameChannelField (frameOf 5) = 0 ∧ checkGood (frameOf 5) = true ∧ formatGood (frameOf 5) = true) ∧
      ¬ (frameChannelField [0, 0] = 0 ∧ checkGood [0, 0] = true ∧ formatGood [0, 0] = true) := by decide

def fieldsOf (kind : Byte) (station : Nat) : ManagementFields := managementFields (framePayload (requestFrame kind station))
theorem test_premises_Management_frames :
    (frameChannelField (requestFrame 0x01 0) = 0 ∧ checkGood (requestFrame 0x01 0) = true ∧ formatGood (requestFrame 0x01 0) = true) ∧
      (checkGood (requestFrame 0x99 65535) = true ∧ formatGood (requestFrame 0x99 65535) = true) := by decide +kernel
theorem test_premises_Management_fields :
    ((fieldsOf 0x01 1).station ≠ 65535 ∧ (fieldsOf 0x01 1).station ≠ base.config.values.station) ∧
      ((fieldsOf 0x99 65535).station = 65535 ∧ (fieldsOf 0x99 65535).kind ≠ 0x01 ∧ (fieldsOf 0x99 65535).kind ≠ 0x02) ∧
      ((fieldsOf 0x07 0).isReply = false ∧ (fieldsOf 0x07 0).station = base.config.values.station ∧
        (fieldsOf 0x07 0).kind = ReqKind.readConfig.code ∧
        requestOf (.readConfig .east 7 []) = some (.readConfig, ⟨.east, (fieldsOf 0x07 0).tag⟩, (fieldsOf 0x07 0).params)) ∧
      ((fieldsOf 0x99 0).station = base.config.values.station ∧ kindOf (fieldsOf 0x99 0).kind = none) ∧
      ((fieldsOf 0x02 65535).isReply = false ∧ (fieldsOf 0x02 65535).station = 65535 ∧ (fieldsOf 0x02 65535).kind = 0x02) ∧
      (managementFields [0, 0, 0x80, 7, 1, 0]).isReply = true := by decide
theorem test_premises_Management_mode :
    (managementFields [0, 0, 0, 7, 0x14, 0, 3]).kind = 0x14 ∧ (managementFields [0, 0, 0, 7, 0x14, 0, 3]).params = [3] ∧
      (managementFields [0, 0, 0, 7, 0x14, 0]).params ≠ [1] ∧ (managementFields [0, 0, 0, 7, 0x14, 0, 1, 1]).params ≠ [1] ∧
      base.admits ⟨.east, 7⟩ = true ∧ base.examined = true ∧ base.stages.get .east = .idle := by decide

def reading1 (s : State) : State := atBank s { BankUnit.reset with inFlight := some ⟨.slot last, .lookup .east, false⟩ }
def stored1 : State :=
  { inHand (.reading hand1) with store := { Store.delivered with slots := [(slotKey last, .written ⟨.live, 9, .entry (ent 5)⟩)] } }
theorem test_premises_LookupRead :
    ((reading1 stored1).stages.get .east = .reading hand1 ∧
      ((reading1 stored1).bank (bankOf hand1.addr.seg)).inFlight = some ⟨.slot last, .lookup .east, false⟩) ∧
      routeCheck ((reading1 stored1).readSlotResult hand1.addr false) (frameChannelField hand1.frame) = some plain ∧
      routeCheck ((reading1 stored1).readSlotResult hand1.addr true) (frameChannelField hand1.frame) = none := by decide +kernel

def asked1 : State := atBank base { BankUnit.reset with inFlight := some ⟨.slot last, .readSlot org, false⟩ }
def held1 : State := atBank (inHand (.waitBank hand1)) busyBank
theorem test_premises_ReadSlots_completion :
    (asked1.drained = true ∧ (asked1.bank .b3).inFlight = some ⟨.slot last, .readSlot org, false⟩) ∧
      held1.stages.get .east = .waitBank hand1 ∧ queued1 ∈ (held1.bank (bankOf hand1.addr.seg)).queue ∧ queued1.stage = .east ∧
      (held1.bank .b3).queue.find? (fun x => x.stage = .east) = some queued1 ∧ queued1.counted = false := by
  decide +kernel

def sent (x : CurrentOp) (b : Bool) : State :=
  { atOp x with lineTx := ⟨some ⟨[], b⟩, some ⟨[], b⟩⟩, tapTx := some ⟨[], b⟩ }
theorem test_premises_Transmissions_goOn :
    (sent .idle false).lineTx.get .west = some ⟨[], false⟩ ∧ (sent .idle false).tapTx = some ⟨[], false⟩ := by decide
theorem test_premises_Transmissions_restart :
    (sent (.restart ⟨org, 1⟩) true).op = .restart ⟨org, 1⟩ ∧ (sent (.restart ⟨org, 1⟩) true).lineTx.get .east = some ⟨[], true⟩ ∧
      (sent (.restart ⟨org, 2⟩) true).tapTx = some ⟨[], true⟩ ∧ (1 ≤ 1 ∧ 2 ≤ 2) := by decide

def drainingBank : BankUnit :=
  { BankUnit.reset with
    state := .draining, inFlight := some ⟨.slot last, .lookup .east, true⟩, marker := 1,
    claim := some (.program ⟨.void, .slot last .void⟩) }
theorem test_premises_Banks :
    ((base.bank .b3).state = .free ∧ (base.bank .b3).queue = [] ∧ (base.bank .b3).inFlight = none ∧ (base.bank .b3).claim = none) ∧
      ((reading1 base).bank .b3).inFlight = some ⟨.slot last, .lookup .east, false⟩ ∧
      ((atBank base { BankUnit.reset with state := .suspendWait }).bank .b3).state = .suspendWait ∧
      (drainingBank.state = .draining ∧ drainingBank.marker = 1 ∧ drainingBank.inFlight.map InFlight.counted = some true) ∧
      ({ busyBank with inFlight := some ⟨.slot last, .engine, false⟩ } : BankUnit).queue = queued1 :: [] ∧
      held1.stages.get queued1.stage = .waitBank hand1 := by decide +kernel

/-- A DRAINING bank with two counted reads, the second of a stage in WAIT_BANK. -/
def drainingTwo (c : Option Claim) : State :=
  atBank (inHand (.waitBank hand1))
    { drainingBank with queue := [{ queued1 with counted := true }], marker := 2, claim := c }
theorem test_premises_Banks_draining :
    (((drainingTwo none).bank .b3).marker = 2 ∧ ((drainingTwo none).bank .b3).queue = [{ queued1 with counted := true }] ∧
      (drainingTwo none).stages.get .east = .waitBank hand1) ∧
      ((drainingTwo (some (.erase 31))).bank .b3).claim = some (.erase 31) ∧
      ((drainingTwo none).bank .b3).queue.find? (fun x => x.stage = .east) = some { queued1 with counted := true } ∧
      ((atBank base { drainingBank with claim := none }).bank .b3).claim = none ∧
      (held1.bank .b3).inFlight = none ∧ (held1.bank .b3).queue = queued1 :: [] ∧
      ({ drainingBank with state := .programming } : BankUnit).claim = some (.program ⟨.void, .slot last .void⟩) ∧
      ({ drainingBank with state := .programming } : BankUnit).state = .programming := by decide +kernel

theorem test_premises_Programs_config :
    (⟨33, 15⟩ : SlotAddr).seg = 33 ∧ (⟨33, 15⟩ : SlotAddr).slot < 16 ∧ (⟨32, 0⟩ : SlotAddr) ≠ ⟨33, 15⟩ ∧
      (atProgram .idle .write (.slot last (.entry 1 (ent 5)))).canonical = true ∧ ProgramRole.write ≠ .repair := by decide
theorem test_premises_Programs_released :
    (promotingNow.bank .b0).claim = none ∧ (bankOf 1 = .b0 ∧ bankOf 8 = .b1 ∧ bankOf 16 = .b2 ∧ bankOf 31 = .b3) ∧
      (⟨.settle, .slot ⟨1, 62⟩ .promote⟩ : Program).job = .slot ⟨1, 62⟩ .promote ∧ (31 : Nat) < 32 ∧ (32 : Nat) ≤ 32 := by decide +kernel
theorem test_premises_Programs :
    (atProgram .idle .repair (.cfgVoid ⟨33, 15⟩)).program = some ⟨.repair, .cfgVoid ⟨33, 15⟩⟩ ∧ base.store.wf = true ∧
      last.slot < 64 := by decide

def atBatch (role : ProgramRole) (b : Batch) : State := atProgram (.commit b) role (.slot ⟨b.seg, b.first⟩ .void)
theorem test_premises_WritePhase :
    (atBatch .write (batch1 (.write 0))).batch? = some (batch1 (.write 0)) ∧ (batch1 (.write 0)).entries[0 + 1]? = some (gone 6) ∧
      (batch1 (.write 1)).entries[1 + 1]? = none ∧ (batch1 (.write 1)).step = .write 1 := by decide
theorem test_premises_Seal :
    (atBatch .seal (batch1 .seal)).batch? = some (batch1 .seal) ∧ (batch1 .seal).entries = ent 5 :: [gone 6] ∧
      base.canonical = true ∧ distinctChannels (batch1 .seal).entries = true ∧
      (∀ e ∈ (batch1 .seal).entries, e.channel ≠ 7) := by decide
theorem test_premises_Settle :
    (atBatch .settle (batch1 (.settle 0 .promote))).batch? = some (batch1 (.settle 0 .promote)) ∧
      (batch1 (.settle 0 .promote)).entries[0]? = some (ent 5) ∧ (batch1 (.settle 0 .promote)).predAt 0 = none ∧
      (batch1 (.settle 1 .retirePred)).predAt 1 = some last ∧ (gone 6).isRoute = false ∧ (ent 5).isRoute = true ∧
      ({ batch1 (.settle 0 .promote) with preds := [some last, none] } : Batch).predAt 0 = some last ∧
      (batch1 (.settle 1 .retireOwn)).step = .settle 1 .retireOwn ∧ (batch1 (.settle 1 .retireOwn)).entries[2]? = none ∧
      (atOp (.commit (batch1 .seal))).op = .commit (batch1 .seal) := by decide
theorem test_premises_Void :
    (atBatch .void (batch1 (.voiding 11 none [⟨11, some 6⟩, ⟨10, some 5⟩]))).batch? =
        some (batch1 (.voiding 11 none [⟨11, some 6⟩, ⟨10, some 5⟩])) ∧
      (batch1 (.voiding 11 none [⟨11, some 6⟩])).step = .voiding 11 none (⟨11, some 6⟩ :: []) ∧
      (atBatch .void (batch1 (.voiding 11 none [⟨11, some 6⟩]))).op = .commit (batch1 (.voiding 11 none [⟨11, some 6⟩])) ∧
      (batch1 (.settle 0 .voidOwn)).step = .settle 0 .voidOwn ∧ (batch1 (.settle 1 .voidPred)).predAt 1 = some last := by decide
/-- The relocation batch of a RECLAIM at its last slot to be voided. -/
def voidingReclaim : ReclaimRec := reclaim1 (.writing (batch1 (.voiding 11 none [⟨11, some 6⟩])))
theorem test_premises_Void_relocation :
    (atProgram (.reclaim voidingReclaim) .void (.slot last .void)).batch? = some (batch1 (.voiding 11 none [⟨11, some 6⟩])) ∧
      (atProgram (.reclaim voidingReclaim) .void (.slot last .void)).op = .reclaim voidingReclaim := by decide

theorem test_premises_EraseCompletion :
    base.canonical = true ∧ (atOp (.erase (erase1 .running []))).op = .erase (erase1 .running []) ∧
      (erase1 .waiting []).step = .waiting ∧ ((erase1 .suspending []).step = .suspending ∧ (erase1 .suspending []).held = []) ∧
      base.store.wf = true ∧ 31 < 32 ∧
      ((atProgram (.erase (erase1 .stamping [])) .stamp (.stamp 31 1)).endProgram ⟨.stamp, .stamp 31 1⟩ true).op =
        .erase (erase1 .stamping []) := by decide
theorem test_premises_ErasesSuspend :
    (erase1 .suspending [.timeout]).held = .timeout :: [] ∧ (erase1 (.stopping .abandon) []).step = .stopping .abandon ∧
      (erase1 (.stopping .timeout) []).step ≠ .claimed ∧ (erase1 (.stopping .timeout) []).step ≠ .stamping ∧
      (erase1 .claimed []).reclaim = none ∧ ({ erase1 .suspended [] with reclaim := some ⟨1, 0, 1, 0⟩ } : EraseRec).step ≠ .stamping ∧
      base.store.wf = true := by decide
theorem test_premises_EraseTimers :
    (atOp (.erase (erase1 .waiting []))).op = .erase (erase1 .waiting []) ∧
      ({ erase1 .waiting [] with runTimer := true } : EraseRec).runTimer = true ∧ (erase1 .running []).step ≠ .waiting := by decide

def sourceRead1 : State :=
  atBank (atOp (.reclaim (reclaim1 (.reading [⟨63, 5⟩] [])))) { BankUnit.reset with inFlight := some ⟨.slot last, .engine, false⟩ }
theorem test_premises_SourceRead :
    sourceRead1.op = .reclaim (reclaim1 (.reading [⟨63, 5⟩] [])) ∧ sourceRead1.engineReads (.slot ⟨31, 63⟩) = true := by decide
theorem test_premises_SourceRead_batch :
    base.canonical = true ∧ base.atMostOneOpen = true ∧ base.placement 17 = .noRoom ∧ base.issue = some 100 ∧
      (segState 31 .opened 47).placement 17 = .inOpen ∧ (segState 31 .opened 47).openSeg = some 31 ∧
      (segState 31 .clean 0).placement 17 = .inFresh 31 ∧ (segState 31 .opened 48).placement 17 = .noRoom ∧
      4294967295 ≤ ({ segState 31 .clean 0 with issue := some 4294967295 } : State).issueNow := by decide

def good : ConfigImage := ⟨65534, 255, 1, 4095, 4095, 1⟩
def twoClean : State :=
  (base.setSeg 32 ⟨some .clean, some 0, none, some 5⟩).setSeg 33 ⟨some .clean, some 0, none, some 5⟩
def noneClean : State :=
  (base.setSeg 32 ⟨some .filled, some 16, none, some 5⟩).setSeg 33 ⟨some .torn, some 0, none, some 6⟩
theorem test_premises_SetConfig :
    (match configOfImage { good with station := 65535 } with
     | .error n => decide (n = 1)
     | .ok _ => false) = true ∧
      (match configOfImage good with
       | .error _ => false
       | .ok c => decide (c.guardLow = 4095)) = true ∧
      narrows guarded1.config.values ConfigRecord.default = true ∧ guarded1.guardRelease = false ∧
      narrows ConfigRecord.default ConfigRecord.default = false ∧ base.issueNow < 4294967295 ∧
      (twoClean.segIs CfgSeg.ca.id .clean = true ∧ twoClean.openCfgSeg = none ∧ twoClean.erasesOf 32 = twoClean.erasesOf 33 ∧
        twoClean.config.source.map (fun x => x.addr.seg) ≠ some CfgSeg.ca.id) ∧
      (noneClean.segIs CfgSeg.ca.id .clean = false ∧ noneClean.segIs CfgSeg.cb.id .clean = false ∧
        noneClean.segIs CfgSeg.cb.id .torn = true ∧ noneClean.segIs CfgSeg.ca.id .torn = false) ∧
      ((segState 33 .opened 15).openCfgSeg = some .cb ∧ (segState 33 .opened 15).fillOf CfgSeg.cb.id < 16) := by decide

theorem test_premises_Rotation :
    base.canonical = true ∧ (atOp (.configWrite (config1 .erasing))).op = .configWrite (config1 .erasing) ∧
      (config1 .erasing).target = some .cb ∧ (config1 .stopping).step = .stopping ∧
      (atProgram (.configWrite (config1 .stamping)) .configStamp (.stamp 33 1)).program = some ⟨.configStamp, .stamp 33 1⟩ := by
  decide
theorem test_premises_Rotation_opens :
    ((segState 33 .opened 15).canonical = true ∧ (segState 33 .opened 15).atMostOneOpenCfg = true ∧
      (segState 33 .opened 15).openCfgSeg = some .cb) ∧
      ((segState 33 .opened 15).openConfigSegment .ca).openCfgSeg = some .ca := by decide
theorem test_premises_ConfigWrite :
    (segState 33 .opened 15).openCfgSeg = some .cb ∧ (config1 .writing).slot = some ⟨33, 15⟩ ∧ (config1 .writing).issue = some 100 ∧
      (atProgram (.configWrite (config1 .voiding)) .configVoid (.cfgVoid ⟨33, 15⟩)).op = .configWrite (config1 .voiding) := by decide

theorem test_premises_UnstageAndIdleTimer_expiry :
    (stagedBy .tap).staging.timer = true ∧ (stagedBy .tap).staging.owner = some .tap ∧ (stagedBy .tap).staging.tag = some 1 := by
  decide

def scanning (m : Mount) (t : ReadTarget) : State :=
  { atOp (.mount m) with cfgBank := { CfgBank.reset with inFlight := some t } }
theorem test_premises_MountScans :
    (Mount.start.phase = .headerScan ∧ (mounting1.claimRead (.header 0)).engineReads (.header Mount.start.headers.length) = true) ∧
      ((mount1 .headerScan).headers.length = 33 ∧
        (scanning (mount1 .headerScan) (.header 33)).engineReads (.header (mount1 .headerScan).headers.length) = true) ∧
      ((scanning { mount1 .slotScan with scan := ⟨33, 15⟩ } (.slot ⟨33, 15⟩)).engineReads (.slot ⟨33, 15⟩) = true) := by decide

def resolved1 : Mount :=
  { mount1 .slotScan with
    slots := [(64, .written ⟨.live, 9, .entry (ent 5)⟩), (65, .written ⟨.live, 9, .seal 1⟩)]
    cfgSlots := [(31, .live 12 ConfigRecord.default)] }
theorem test_premises_Resolve :
    tableWf .blank resolved1.slots = true ∧ tableWf .blank resolved1.cfgSlots = true ∧
      sealedBy resolved1.slots 64 9 = true ∧ (base.resolve resolved1).position 5 = some ⟨1, 0⟩ ∧
      (base.resolve resolved1).issue = some 13 ∧ (base.resolve resolved1).position 6 = none := by decide

/-- Segment 0 stamped and blank, 1 with a PENDING winner of channel 5 above its seal's older loser, 2 with a slot recorded
MARGIN_FAIL and one not sealed, CA filled, CB with the record in force, the others unstamped. -/
def resolved2 : Mount :=
  { Mount.start with
    headers := [some 1, some 0, some 0] ++ List.replicate 29 none ++ [some 2, some 3]
    slots :=
      [(64, .written ⟨.live, 9, .entry (ent 5)⟩), (65, .written ⟨.live, 9, .seal 1⟩), (66, .written ⟨.pending, 12, .entry (ent 5)⟩),
        (67, .written ⟨.live, 12, .seal 1⟩), (128, .indeterminate), (190, .written ⟨.pending, 11, .entry (ent 7)⟩),
        (191, .written ⟨.live, 10, .seal 1⟩)]
    cfgSlots := [(0, .live 3 ConfigRecord.default), (15, .indeterminate), (16, .live 8 ConfigRecord.default)] }
theorem test_premises_ResolveSets :
    base.canonical = true ∧ tableWf .blank resolved2.slots = true ∧ tableWf .blank resolved2.cfgSlots = true := by decide
theorem test_resolveSetsSegments :
    let t := base.resolve resolved2
    ((t.seg 0).state = some .clean ∧ (t.seg 0).fill = some 0) ∧ ((t.seg 1).state = some .opened ∧ (t.seg 1).fill = some 4) ∧
      ((t.seg 2).state = some .filled ∧ (t.seg 2).fill = some 64) ∧ ((t.seg 31).state = some .torn ∧ (t.seg 31).fill = some 0) ∧
      ((t.seg 32).state = some .filled ∧ (t.seg 32).fill = some 16) ∧ ((t.seg 33).state = some .opened ∧ (t.seg 33).fill = some 1) ∧
      t.config = ⟨ConfigRecord.default, some ⟨8, ⟨33, 0⟩⟩⟩ ∧
      (match t.op with
       | .mount m =>
         decide (m.repairs = [⟨⟨2, 0⟩, .void, none, none, none⟩, ⟨⟨2, 62⟩, .void, none, some 7, some 11⟩,
           ⟨⟨32, 15⟩, .void, none, none, none⟩, ⟨⟨1, 2⟩, .promote, some 5, some 5, some 12⟩,
           ⟨⟨1, 0⟩, .retire, some 5, some 5, some 9⟩])
       | _ => false) = true := by decide

def repairing (act : RepairAct) : State :=
  atProgram (.mount { mount1 .repair with repairs := [repair1 act] }) .repair (.slot last .void)
theorem test_premises_Repairs :
    ((repairing .promote).op = .mount { mount1 .repair with repairs := [repair1 .promote] } ∧
      (repairing .void).program = some ⟨.repair, .slot last .void⟩) ∧
      (base.canonical = true ∧ (mount1 .repair).repairs = []) ∧ (31 < 32 ∧ 32 ≤ 32) ∧
      (tableWf .blank (mount1 .repair).slots = true ∧ tableWf .blank (mount1 .repair).cfgSlots = true) := by decide
theorem test_premises_Repairs_winner :
    winnerOf [⟨5, ⟨1, 0⟩, 9, true, true⟩, ⟨5, ⟨1, 2⟩, 12, true, false⟩] 5 = some ⟨5, ⟨1, 2⟩, 12, true, false⟩ := by decide

end Sys2Proof.Tests
end

section
/-! PROOF. READ INDEX (R31, R32): which runs are answered, and with what. -/

namespace Sys2Proof.Machine

/-- The command of a READ INDEX is the reception of its request. -/
theorem exec_readIndex (p : Port) (tag : Byte) (ps : List Byte) (s : State) :
    exec (.readIndex p tag ps) s = .next (s.receive .readIndex p tag ps) := rfl

/-- Two received bytes, sent again as the two-byte field of their value, are the same bytes. -/
theorem byte2_value2 (hi lo : Byte) : byte2 (value2 hi lo) = [hi, lo] := by
  have hhi : (hi.toNat * 256 + lo.toNat) / 256 = hi.toNat := by omega
  have hlo : BitVec.ofNat 8 (hi.toNat * 256 + lo.toNat) = lo := by
    apply BitVec.eq_of_toNat_eq
    simp only [BitVec.toNat_ofNat]
    omega
  simp [byte2, value2, hhi, hlo]

/-- A received byte, sent again as the one-byte field of its value, is the same byte. -/
theorem byte1_toNat (b : Byte) : byte1 b.toNat = [b] := by
  simp [byte1]

/-- The runs that R31 allows. -/
theorem indexRunGood_iff (first count : Nat) :
    indexRunGood first count = true ↔
      1 ≤ first ∧ first ≤ 4095 ∧ 1 ≤ count ∧ count ≤ 32 ∧ first + count - 1 ≤ 4095 := by
  simp only [indexRunGood, Bool.and_eq_true, decide_eq_true_eq, and_assoc]
  rfl

/-- A READ INDEX of three parameter bytes comes to one read reply, which on DONE repeats the parameters before the positions. -/
theorem doReadIndex_three (o : Origin) (hi lo n : Byte) (s : State) :
    s.doReadIndex o [hi, lo, n] =
      if indexRunGood (value2 hi lo) n.toNat then
        s.replyRead o 0x04 .done ([hi, lo, n] ++ s.indexItems (value2 hi lo) n.toNat)
      else s.replyRead o 0x04 .badRequest [] := by
  simp only [State.doReadIndex, byte2_value2, byte1_toNat, ReqKind.code, List.cons_append, List.nil_append]

/-- READ INDEX is no state-changing kind and three bytes are its length, so neither of the last two screens stops it (R151, R152). -/
theorem screenKnown_readIndex (o : Origin) (hi lo n : Byte) (s : State) :
    s.screenKnown .readIndex o [hi, lo, n] = s.doReadIndex o [hi, lo, n] := by
  simp [State.screenKnown, stateChanging, lengthGood, State.perform]

/-- Settles O24: the screens leave READ INDEX to `doReadIndex`, whose run check is the one of R31; either way a drained state
is left with one reply to place, so that settling it only examines the erase. -/
theorem readIndexAnswersRunsInsideTheTable : Obligations.ReadIndexAnswersRunsInsideTheTable := by
  intro s p tag hi lo n hd
  refine ⟨fun hm => ?_, fun ha => ?_⟩
  · rw [exec_readIndex, receive_mounting hm (by decide), settle_replyRead hd]
    rfl
  · rw [exec_readIndex, receive_read ha, screenKnown_readIndex, doReadIndex_three]
    simp only [indexRunGood_iff, value2, State.indexItems]
    split <;> rw [settle_replyRead hd]

end Sys2Proof.Machine
end

section
/-! PROOF. UNSTAGE and IDLE_TIMER_EXPIRY (R38, R40): how the Staging Buffer is emptied. -/

namespace Sys2Proof.Machine

/-! ## The Staging Buffer -/

/-- A consistent buffer without entries is the buffer at reset (R34, R39). -/
theorem Staging.eq_reset_of_consistent {b : Staging} (hc : b.consistent = true) (he : b.entries = []) : b = Staging.reset := by
  obtain ⟨entries, owner, timer, tag⟩ := b
  cases he
  simp only [Staging.consistent, List.isEmpty_nil, Bool.not_true, Bool.and_eq_true, beq_iff_eq] at hc
  obtain ⟨⟨⟨howner, htag⟩, htimer⟩, -⟩ := hc
  rw [Option.isSome_eq_false_iff, Option.isNone_iff_eq_none] at howner htag
  rw [howner, htag, htimer, Staging.reset]

/-- An empty buffer is owned by no other port. -/
theorem Staging.ownedByOther_of_empty {b : Staging} (p : Port) (he : b.entries = []) : b.ownedByOther p = false := by
  simp [Staging.ownedByOther, he]

/-- What the owner staged is owned by no other port. -/
theorem Staging.ownedByOther_of_owner {b : Staging} {p : Port} (ho : b.owner = some p) : b.ownedByOther p = false := by
  simp [Staging.ownedByOther, ho]

/-- Entries that this port did not stage are owned by another port. -/
theorem Staging.ownedByOther_of_other {b : Staging} {p : Port} (he : b.entries ≠ []) (ho : b.owner ≠ some p) :
    b.ownedByOther p = true := by
  simp [Staging.ownedByOther, he, ho]

/-- The record of an expiry names the owner and the tag of the last accepted STAGE (R40). -/
theorem Staging.expiredRecord_of_owner {b : Staging} {p : Port} {tag : Byte} (ho : b.owner = some p) (ht : b.tag = some tag) :
    b.expiredRecord = ⟨.stageExpired, none, none, none, none, some ⟨p, tag⟩⟩ := by
  simp only [Staging.expiredRecord, ho, ht]

/-- Emptying the buffer leaves what the lookup stages take alone. -/
theorem State.drained_unstaged {s : State} (hd : s.drained = true) : ({ s with staging := Staging.reset } : State).drained = true :=
  hd ▸ State.drained_congr rfl rfl

/-! ## UNSTAGE (R38) -/

/-- The command of an UNSTAGE is the reception of its request. -/
theorem exec_unstage (p : Port) (tag : Byte) (ps : List Byte) (s : State) :
    exec (.unstage p tag ps) s = .next (s.receive .unstage p tag ps) := rfl

/-- A buffer of another port stands. -/
theorem doUnstage_other {s : State} {o : Origin} (h : s.staging.ownedByOther o.port = true) :
    s.doUnstage o = s.replyStored o .unstage .stageOwned [] := by
  simp only [State.doUnstage, h, if_true]

/-- A buffer that is not another port's is emptied, and its entries are counted in the reply. -/
theorem doUnstage_free {s : State} {o : Origin} (h : s.staging.ownedByOther o.port = false) :
    s.doUnstage o =
      ({ s with staging := Staging.reset } : State).replyStored o .unstage .done (byte1 s.staging.entries.length) := by
  simp only [State.doUnstage, h, Bool.false_eq_true, if_false]

/-- Emptying a consistent buffer that is already empty changes nothing but the reply. -/
theorem doUnstage_empty {s : State} {o : Origin} (hc : s.staging.consistent = true) (he : s.staging.entries = []) :
    s.doUnstage o = s.replyStored o .unstage .done [0] := by
  have hs : ({ s with staging := Staging.reset } : State) = s := by
    rw [← Staging.eq_reset_of_consistent hc he]
  rw [doUnstage_free (Staging.ownedByOther_of_empty o.port he), hs, he]
  rfl

/-- An UNSTAGE leaves a drained state drained. -/
theorem settle_doUnstage {s : State} (hd : s.drained = true) (o : Origin) :
    (s.doUnstage o).settle = (s.doUnstage o).examineErase := by
  cases h : s.staging.ownedByOther o.port with
  | true => rw [doUnstage_other h, settle_replyStored hd]
  | false => rw [doUnstage_free h, settle_replyStored (State.drained_unstaged hd)]

/-- An UNSTAGE that passes the screens is carried out, and its event ends with the examination of the erase. -/
theorem exec_unstage_admitted {s : State} {p : Port} {tag : Byte} (hd : s.drained = true) (ha : s.admits ⟨p, tag⟩ = true) :
    exec (.unstage p tag []) s = .next (s.doUnstage ⟨p, tag⟩).examineErase := by
  rw [exec_unstage, receive_change ha rfl rfl, State.perform, settle_doUnstage hd]

/-! ## IDLE_TIMER_EXPIRY (R40) -/

/-- The expiry of a running idle timer empties the buffer and records whose it was. -/
theorem exec_idleTimerExpiry_running {s : State} (ht : s.staging.timer = true) :
    exec .idleTimerExpiry s = .next (({ s with staging := Staging.reset } : State).addFault s.staging.expiredRecord) := by
  simp only [exec, execIdleTimerExpiry, ht, if_true]

/-- Settles O26: an admitted UNSTAGE finds the buffer empty, its own or another port's, and a consistent empty buffer is already
the one at reset; the expiry's record takes owner and tag from the buffer as it stood before. -/
theorem unstageAndIdleTimerExpiryEmptyTheBuffer : Obligations.UnstageAndIdleTimerExpiryEmptyTheBuffer := by
  refine ⟨fun s p tag hd hc ha => ?_, fun s p tag htimer howner htag => ?_⟩
  · rw [exec_unstage_admitted hd ha]
    by_cases he : s.staging.entries = []
    · rw [doUnstage_empty hc he, if_pos he]
    · rw [if_neg he]
      by_cases ho : s.staging.owner = some p
      · rw [doUnstage_free (Staging.ownedByOther_of_owner ho), if_pos ho]
        rfl
      · rw [doUnstage_other (Staging.ownedByOther_of_other he ho), if_neg ho]
  · rw [exec_idleTimerExpiry_running htimer, Staging.expiredRecord_of_owner howner htag]
    rfl

end Sys2Proof.Machine
end

section
/-! PROOF. READ FAULTS and CLEAR FAULTS (R121, R122): the Fault List reported, and emptied once. -/

namespace Sys2Proof.Machine

/-! ## READ FAULTS (R121) -/

/-- The command of a READ FAULTS is the reception of its request. -/
theorem exec_readFaults (p : Port) (tag : Byte) (ps : List Byte) (s : State) :
    exec (.readFaults p tag ps) s = .next (s.receive .readFaults p tag ps) := rfl

/-- READ FAULTS is no state-changing kind and has no parameters, so neither of the last two screens stops it (R151, R152). -/
theorem screenKnown_readFaults (o : Origin) (s : State) : s.screenKnown .readFaults o [] = s.doReadFaults o := by
  simp [State.screenKnown, stateChanging, lengthGood, State.perform]

/-- A READ FAULTS is one read reply, so it leaves a drained state drained. -/
theorem settle_doReadFaults {s : State} (hd : s.drained = true) (o : Origin) :
    (s.doReadFaults o).settle = (s.doReadFaults o).examineErase :=
  settle_replyRead hd _ _ _ _

/-! ## CLEAR FAULTS (R122) -/

/-- The command of a CLEAR FAULTS is the reception of its request. -/
theorem exec_clearFaults (p : Port) (tag : Byte) (ps : List Byte) (s : State) :
    exec (.clearFaults p tag ps) s = .next (s.receive .clearFaults p tag ps) := rfl

/-- Emptying the Fault List leaves what the lookup stages take alone. -/
theorem State.drained_faultsCleared {s : State} (hd : s.drained = true) :
    ({ s with faults := [], overflow := 0 } : State).drained = true :=
  hd ▸ State.drained_congr rfl rfl

/-- A CLEAR FAULTS leaves a drained state drained. -/
theorem settle_doClearFaults {s : State} (hd : s.drained = true) (o : Origin) :
    (s.doClearFaults o).settle = (s.doClearFaults o).examineErase :=
  settle_replyStored (State.drained_faultsCleared hd) _ _ _ _

/-! ## The repeat of a request (R151) -/

/-- A reply in the port's memory that carries the request's tag is the one that answers the request. -/
theorem storedReply_of_memory {s : State} {o : Origin} {m : StoredReply} (hm : s.memory.get o.port = some m) (ht : m.tag = o.tag) :
    s.storedReply o = some m := by
  simp only [State.storedReply, hm, ht, if_true]

/-- A state-changing request whose tag stands in reply memory is answered from there and not carried out, whatever its
parameters. -/
theorem receive_repeat {s : State} {k : ReqKind} {p : Port} {tag : Byte} {ps : List Byte} {m : StoredReply}
    (ha : s.admitsRead ⟨p, tag⟩ = true) (hk : stateChanging k ps = true) (hm : s.storedReply ⟨p, tag⟩ = some m) :
    s.receive k p tag ps = (s.emitReply ⟨p, tag⟩ m.kind m.status m.results false).settle := by
  rw [receive_read ha]
  simp only [State.screenKnown, hk, hm, if_true]

/-- Settles O25: the first screen refuses a READ FAULTS while MOUNTING, otherwise it is carried out; a CLEAR FAULTS is carried
out when reply memory does not hold its tag, and is answered from there when it does. Each way a drained state is left with one
reply to place, so that settling it only examines the erase. -/
theorem readFaultsReportsAndClearFaultsEmpties : Obligations.ReadFaultsReportsAndClearFaultsEmpties := by
  intro s p tag hd
  refine ⟨fun hm => ?mounting, fun ha => ?report, fun ha => ?clear, fun rs ha hm => ?again⟩
  case mounting =>
    rw [exec_readFaults, receive_mounting hm (by decide), settle_replyRead hd]
    rfl
  case report =>
    rw [exec_readFaults, receive_read ha, screenKnown_readFaults, settle_doReadFaults hd]
    rfl
  case clear =>
    rw [exec_clearFaults, receive_change ha rfl rfl, State.perform, settle_doClearFaults hd]
    rfl
  case again =>
    rw [exec_clearFaults, receive_repeat ha rfl (storedReply_of_memory hm rfl), settle_emitReply hd]

end Sys2Proof.Machine
end

section
/-! PROOF. What a step is, and the canonical forms: every command answers a next state and leaves the waiting commands alone, and
a predicate that every update of the commands keeps is kept by every step. -/

namespace Sys2Proof.Machine

/-! ## Lists and branches -/

/-- Two branches on equivalent conditions. -/
theorem ite_congr_of_iff {α : Type} {P Q : Prop} [Decidable P] [Decidable Q] {a b c d : α} (h : P ↔ Q) (ha : a = c) (hb : b = d) :
    (if P then a else b) = if Q then c else d :=
  ite_congr (propext h) (fun _ => ha) fun _ => hb

theorem exists_pair_of_length {α : Type} : ∀ {l : List α}, l.length = 2 → ∃ a b, l = [a, b]
  | [a, b], _ => ⟨a, b, rfl⟩

/-! ## The step -/

theorem step_cons (c : Instr) (rest : List Instr) (s : State) :
    step { s with pending := c :: rest } = exec c { s with pending := rest } := rfl

theorem step_idle {s : State} (h : s.pending = []) : step s = .next s := by
  simp only [step, h]

/-- A step runs the front command on the state with the rest of the queue, or idles. -/
theorem step_cases {s t : State} (h : step s = .next t) :
    (s.pending = [] ∧ t = s) ∨
      ∃ (c : Instr) (rest : List Instr), s.pending = c :: rest ∧ exec c { s with pending := rest } = .next t := by
  cases hp : s.pending with
  | nil =>
    rw [step_idle hp] at h
    injection h with h
    exact .inl ⟨rfl, h.symm⟩
  | cons c rest =>
    refine .inr ⟨c, rest, rfl, ?_⟩
    simpa only [step, hp] using h

/-- A predicate that every update of the commands keeps, an erased segment included, is kept by every step. -/
theorem step_keeps {P : State → Prop} (h : StableCommands P) (hp : ∀ (s : State) (l : List Instr), P s → P { s with pending := l })
    (erased : ∀ (x : State) (g : Nat), P x → P { x with store := x.store.erased g }) {s t : State} (hs : P s)
    (he : step s = .next t) : P t := by
  obtain ⟨-, rfl⟩ | ⟨c, rest, -, hx⟩ := step_cases he
  · exact hs
  · exact exec_keeps h (fun _ _ => erased) (hp s rest hs) hx

/-- Every command answers a next state. -/
theorem exec_next (c : Instr) (s : State) : ∃ t, exec c s = .next t := by
  cases c <;> simp only [exec, execPowerOn, execLossOfPower, execResetAssertion, execResetRelease, execGuardReleaseChange,
    execFrameArrival, execLookupReadCompletion, execReadSlotCompletion, execSourceReadCompletion, execHoldTimerExpiry,
    execLineTransmissionCompletion, execTapTransmissionCompletion, execProgramDeadlineExpiry, execWriteProgramCompletion,
    execSealProgramCompletion, execSettleProgramCompletion, execVoidProgramCompletion, execStampProgramCompletion,
    execEraseCompletion, execSuspendCompletion, execStopCompletion, execEraseTimeoutExpiry, execRunIntervalTimerExpiry,
    execIdleTimerExpiry, execConfigEraseCompletion, execConfigEraseTimeout, execConfigStopCompletion, execConfigStampCompletion,
    execConfigWriteCompletion, execConfigVoidCompletion, execHeaderReadCompletion, execSlotScanReadCompletion,
    execRepairProgramCompletion, execRestartDrainExpiry, execStatus, execDescribe, execReadSlot, execReadIndex, execReadCounters,
    execReadCountersWithClear, execReadFaults, execReadConfig, execClearFaults, execStage, execUnstage, execAbandon,
    execSetModeRun, execSetModeBypass, execCommit, execErase, execReclaim, execSetConfig, execRestart] <;>
  (repeat' split) <;> exact ⟨_, rfl⟩

/-! ## Folds over the segments -/

/-- What replacing the state of any segment keeps, the mount keeps when it sets all segments. -/
theorem setAllSegments_keeps {P : State → Prop} (h : ∀ (x : State) (g : Nat) (v : SegVol), P x → P (x.setSeg g v)) (m : Mount)
    {s : State} (hs : P s) : P (s.setAllSegments m) := by
  unfold State.setAllSegments
  generalize List.range Config.segments = l
  induction l generalizing s with
  | nil => exact hs
  | cons g l ih => exact ih (h _ _ _ hs)

theorem allocate_keeps {P : State → Prop} (h : ∀ (x : State) (g : Nat) (v : SegVol), P x → P (x.setSeg g v)) (g : Nat)
    {s : State} (hs : P s) : P (s.allocate g) := by
  unfold State.allocate
  split
  · exact h _ _ _ (h _ _ _ hs)
  · exact h _ _ _ hs

theorem openConfigSegment_keeps {P : State → Prop} (h : ∀ (x : State) (g : Nat) (v : SegVol), P x → P (x.setSeg g v)) (g : CfgSeg)
    {s : State} (hs : P s) : P (s.openConfigSegment g) := by
  unfold State.openConfigSegment
  split
  · split
    · exact h _ _ _ hs
    · exact h _ _ _ (h _ _ _ hs)
  · exact h _ _ _ hs

/-! ## The queue of waiting commands -/

/-- Every command leaves the queue of waiting commands alone. -/
theorem pending_stable (l : List Instr) : StableCommands (fun s => s.pending = l) where
  toStableWork := StableWork.ofWork (fun _ _ _ _ _ _ _ h => h)
  setSeg _ _ _ _ h := h
  allocate _ g h := allocate_keeps (P := fun s => s.pending = l) (fun _ _ _ h => h) g h
  openConfigSegment _ g h := openConfigSegment_keeps (P := fun s => s.pending = l) (fun _ _ _ h => h) g h
  setAllSegments _ m h := setAllSegments_keeps (P := fun s => s.pending = l) (fun _ _ _ h => h) m h
  programmed _ _ _ h := h
  erasedCfg _ _ h := h
  torn _ _ h := h
  setPosition _ _ _ h := h
  resolved _ _ _ _ h := h
  dequeued _ _ _ h := h
  issue _ _ h := h
  addFault s r h := by simpa using h
  placeReply _ _ _ h := by simpa using h
  remember _ _ _ _ _ h := h
  config _ _ h := h
  opState _ _ _ h := h
  internalReset _ h := h
  unstaged _ h := h
  staged _ _ _ _ _ _ _ h := h
  enqueued _ _ _ h := h
  clearFaults _ h := h
  count _ _ _ h := h
  clearCounters _ _ h := h
  placeTraffic _ _ _ h := by simpa using h
  carryTraffic _ _ _ h := by simpa using h
  placeDelivery _ _ h := by simpa using h
  taken _ _ _ _ _ h := h
  arrived _ _ _ _ h := h
  lineSent _ _ h := by simpa using h
  tapSent _ h := by simpa using h
  guardLevel _ _ h := h
  reset _ _ h := h
  resetLevel _ _ h := h
  standing _ h := h

theorem pending_exec {c : Instr} {s t : State} (h : exec c s = .next t) : t.pending = s.pending :=
  exec_keeps (pending_stable s.pending) (fun _ _ _ _ hx => hx) rfl h

/-- Settles O1: a step unfolds to `exec` on the front command, every arm of `exec` is a next state, and the queue is among the
pieces that no update touches. -/
theorem stepRunsTheFrontCommand : Obligations.StepRunsTheFrontCommand := by
  refine ⟨step_cons, fun c s => ?_, fun s => step_idle⟩
  obtain ⟨t, ht⟩ := exec_next c s
  exact ⟨t, ht, pending_exec ht⟩

/-! ## Canonical forms -/

theorem State.canonical_iff (s : State) :
    s.canonical = true ↔ s.store.wf = true ∧ tableWf none s.index = true ∧ tableWf SegVol.noValue s.segs = true := by
  simp only [State.canonical, Bool.and_eq_true, and_assoc]

theorem canonical_setSeg {s : State} (g : Nat) (v : SegVol) (h : s.canonical = true) : (s.setSeg g v).canonical = true := by
  rw [State.canonical_iff] at h ⊢
  exact ⟨h.1, h.2.1, tablePut_wf _ _ h.2.2⟩

theorem canonical_setPosition {s : State} (c : Nat) (v : Option SlotAddr) (h : s.canonical = true) :
    (s.setPosition c v).canonical = true := by
  rw [State.canonical_iff] at h ⊢
  exact ⟨h.1, tablePut_wf _ _ h.2.1, h.2.2⟩

theorem canonical_setStore {s : State} {m : Store} (hm : m.wf = true) (h : s.canonical = true) :
    ({ s with store := m } : State).canonical = true := by
  rw [State.canonical_iff] at h ⊢
  exact ⟨hm, h.2⟩

theorem State.store_wf {s : State} (h : s.canonical = true) : s.store.wf = true := (s.canonical_iff.1 h).1

theorem State.index_wf {s : State} (h : s.canonical = true) : tableWf none s.index = true := (s.canonical_iff.1 h).2.1

/-- The index that RESOLVE builds is canonical. -/
theorem indexFrom_wf (cands : List Candidate) : tableWf none (indexFrom cands) = true := by
  unfold indexFrom
  suffices h : ∀ (l : List Nat) (t : Table (Option SlotAddr)), tableWf none t = true →
      tableWf none (l.foldl (fun acc ch => tablePut none ch (positionOf cands ch) acc) t) = true from h _ [] rfl
  intro l
  induction l with
  | nil => exact fun _ h => h
  | cons c l ih => exact fun _ h => ih _ (tablePut_wf _ _ h)

theorem cutErase_wf {m : Store} (e : EraseRec) (h : m.wf = true) : (m.cutErase e).wf = true := by
  unfold Store.cutErase
  split
  · exact Store.torn_wf _ h
  · exact h

theorem cutProgram_wf {s : State} (h : s.store.wf = true) : s.cutProgram.wf = true := by
  unfold State.cutProgram
  split
  · exact Store.programmed_wf _ _ h
  · exact h

/-- What is left of the store after work cut short: first the program's cells, then the erases', each at most once. -/
theorem cutShort_keeps {P : Store → Prop} {s : State} (hp : P s.cutProgram) (he : ∀ (m : Store) (e : EraseRec), P m → P (m.cutErase e))
    (ht : ∀ (m : Store) (g : CfgSeg), P m → P (m.torn g.id)) : P s.cutShort := by
  unfold State.cutShort
  have h1 : P (match s.suspended with
      | some e => s.cutProgram.cutErase e
      | none => s.cutProgram) := by
    split
    · exact he _ _ hp
    · exact hp
  dsimp only
  split
  · exact he _ _ h1
  · split
    · exact ht _ _ h1
    · exact ht _ _ h1
    · exact h1
  · exact h1

theorem cutShort_wf {s : State} (h : s.store.wf = true) : s.cutShort.wf = true :=
  cutShort_keeps (P := fun m => m.wf = true) (cutProgram_wf h) (fun _ e => cutErase_wf e) (fun _ g => Store.torn_wf g.id)

theorem canonical_volatileReset {s : State} (o : OpState) (h : s.canonical = true) : (s.volatileReset o).canonical = true := by
  rw [State.canonical_iff]
  exact ⟨cutShort_wf (State.store_wf h), rfl, rfl⟩

/-- A predicate on the store, the index and the segment values is kept by every update that keeps it there. -/
theorem canonical_stable : StableCommands (fun s => s.canonical = true) where
  toStableWork := StableWork.ofWork (fun _ _ _ _ _ _ _ h => h)
  setSeg _ g v _ h := canonical_setSeg g v h
  allocate _ g h := allocate_keeps (P := fun s => s.canonical = true) (fun _ g v => canonical_setSeg g v) g h
  openConfigSegment _ g h := openConfigSegment_keeps (P := fun s => s.canonical = true) (fun _ g v => canonical_setSeg g v) g h
  setAllSegments _ m h := setAllSegments_keeps (P := fun s => s.canonical = true) (fun _ g v => canonical_setSeg g v) m h
  programmed _ j pass h := canonical_setStore (Store.programmed_wf j pass (State.store_wf h)) h
  erasedCfg _ g h := canonical_setStore (Store.erased_wf g.id (State.store_wf h)) h
  torn _ g h := canonical_setStore (Store.torn_wf g (State.store_wf h)) h
  setPosition _ c v h := canonical_setPosition c v h
  resolved s cands _ _ h := by
    rw [State.canonical_iff] at h ⊢
    exact ⟨h.1, indexFrom_wf cands, h.2.2⟩
  dequeued _ _ _ h := h
  issue _ _ h := h
  addFault s r h := by simpa [State.canonical] using h
  placeReply _ _ _ h := by simpa [State.canonical] using h
  remember _ _ _ _ _ h := h
  config _ _ h := h
  opState _ _ _ h := h
  internalReset _ h := canonical_volatileReset _ h
  unstaged _ h := h
  staged _ _ _ _ _ _ _ h := h
  enqueued _ _ _ h := h
  clearFaults _ h := h
  count _ _ _ h := h
  clearCounters _ _ h := h
  placeTraffic _ _ _ h := by simpa [State.canonical] using h
  carryTraffic _ _ _ h := by simpa [State.canonical] using h
  placeDelivery _ _ h := by simpa [State.canonical] using h
  taken _ _ _ _ _ h := h
  arrived _ _ _ _ h := h
  lineSent _ _ h := by simpa [State.canonical] using h
  tapSent _ h := by simpa [State.canonical] using h
  guardLevel _ _ h := h
  reset _ o h := canonical_volatileReset o h
  resetLevel _ _ h := h
  standing _ h := h

theorem canonical_erased (x : State) (g : Nat) (h : x.canonical = true) :
    ({ x with store := x.store.erased g } : State).canonical = true :=
  canonical_setStore (Store.erased_wf g (State.store_wf h)) h

/-- Settles O4: every update of the store, the index and the segment values puts into a canonical table or fills one. -/
theorem stepKeepsTheCanonicalForms : Obligations.StepKeepsTheCanonicalForms :=
  fun _ _ hs he => step_keeps canonical_stable (fun _ _ h => h) canonical_erased hs he

end Sys2Proof.Machine
end

section
/-! PROOF. Capacities, and the form of the Staging Buffer (R34, R105, R119, R124, R135, R137, R142): kept by every step. -/

namespace Sys2Proof.Machine

/-! ## Counters -/

/-- The place of a counter in its block, from 0 (Table 7-3). -/
def Counter.place : Counter → Nat
  | .received => 0
  | .check => 1
  | .format => 2
  | .ingressFull => 3
  | .noRoute => 4
  | .notAccepted => 5
  | .holdExpired => 6
  | .stale => 7
  | .discarded => 8
  | .noDeliverToSelf => 9
  | .passed => 10
  | .delivered => 11
  | .mgmtConsumed => 12
  | .mgmtPassed => 13
  | .bypassed => 14
  | .tapIdle => 15
  | .egressFull => 16
  | .replyLost => 17

/-- A count changes the counter at its place and no other. -/
theorem Counters.toList_bump (c : Counters) (x : Counter) : (c.bump x).toList = c.toList.modify x.place saturate := by
  cases x <;> rfl

theorem Counters.inRange_iff (c : Counters) : c.inRange = true ↔ ∀ n ∈ c.toList, n ≤ Config.counterMax := by
  simp only [Counters.inRange, List.all_eq_true, decide_eq_true_eq]

/-- One more count leaves a counter block in its range. -/
theorem Counters.inRange_bump {c : Counters} (x : Counter) (h : c.inRange = true) : (c.bump x).inRange = true := by
  rw [Counters.inRange_iff] at h ⊢
  intro n hn
  rw [Counters.toList_bump, List.mem_iff_getElem?] at hn
  obtain ⟨i, hi⟩ := hn
  rw [List.getElem?_modify] at hi
  obtain ⟨k, hk, rfl⟩ := Option.map_eq_some_iff.1 hi
  have := h k (List.mem_of_getElem? hk)
  split
  · exact saturate_le this
  · exact this

theorem Counters.inRange_zero : Counters.zero.inRange = true := by decide

theorem Counters.inRange_countReceived (n : Nat) {c : Counters} (h : c.inRange = true) : (c.countReceived n).inRange = true := by
  induction n generalizing c with
  | zero => exact h
  | succ n ih => exact ih (Counters.inRange_bump _ h)

/-! ## Capacities -/

/-- The capacities, one by one. -/
structure State.Within (s : State) : Prop where
  ingress : ∀ p, (s.ingress.get p).length ≤ Config.ingressCapacity
  traffic : ∀ l, (s.traffic.get l).length ≤ Config.trafficCapacity
  replies : ∀ l, (s.replies.get l).length ≤ Config.replyCapacity
  delivery : s.delivery.length ≤ Config.deliveryCapacity
  queue : s.queue.length ≤ Config.queueCapacity
  faults : s.faults.length ≤ Config.faultCapacity
  overflow : s.overflow ≤ Config.overflowMax
  staging : s.staging.entries.length ≤ Config.stagingCapacity
  counters : ∀ p, (s.counters.get p).inRange = true

theorem State.withinCapacity_iff (s : State) : s.withinCapacity = true ↔ s.Within := by
  simp only [State.withinCapacity, Bool.and_eq_true, decide_eq_true_eq]
  constructor
  · rintro ⟨⟨⟨⟨⟨⟨⟨⟨⟨⟨⟨⟨⟨⟨ie, iw⟩, it⟩, te⟩, tw⟩, re⟩, rw'⟩, d⟩, q⟩, f⟩, o⟩, st⟩, ce⟩, cw⟩, ct⟩
    exact ⟨fun p => by cases p <;> assumption, fun l => by cases l <;> assumption, fun l => by cases l <;> assumption, d, q, f, o, st,
      fun p => by cases p <;> assumption⟩
  · intro h
    exact ⟨⟨⟨⟨⟨⟨⟨⟨⟨⟨⟨⟨⟨⟨h.ingress .east, h.ingress .west⟩, h.ingress .tap⟩, h.traffic .east⟩, h.traffic .west⟩, h.replies .east⟩,
      h.replies .west⟩, h.delivery⟩, h.queue⟩, h.faults⟩, h.overflow⟩, h.staging⟩, h.counters .east⟩, h.counters .west⟩, h.counters .tap⟩

/-- A property of the values of all ports is kept where one that has it is put. -/
theorem PerPort.forall_set {α : Type} {Q : α → Prop} {t : PerPort α} (h : ∀ q, Q (t.get q)) (p : Port) {v : α} (hv : Q v) :
    ∀ q, Q ((t.set p v).get q) := by
  intro q
  by_cases e : q = p
  · subst e
    rwa [PerPort.get_set_same]
  · rw [PerPort.get_set_other _ _ e]
    exact h q

/-- A property of the values of both lines is kept where one that has it is put. -/
theorem PerLine.forall_set {α : Type} {Q : α → Prop} {t : PerLine α} (h : ∀ k, Q (t.get k)) (l : Line) {v : α} (hv : Q v) :
    ∀ k, Q ((t.set l v).get k) := by
  intro k
  by_cases e : k = l
  · subst e
    rwa [PerLine.get_set_same]
  · rw [PerLine.get_set_other _ _ e]
    exact h k

/-- What a line transmitter that is kicked does: nothing, or it takes the oldest reply, or with none the oldest traffic frame. -/
theorem kickLine_cases (s : State) (l : Line) :
    s.kickLine l = s ∨
      (s.lineTx.get l = none ∧ ∃ r rs, s.replies.get l = r :: rs ∧
        s.kickLine l = { s with lineTx := s.lineTx.set l (some r), replies := s.replies.set l rs }) ∨
      (s.lineTx.get l = none ∧ s.replies.get l = [] ∧ ∃ f fs, s.traffic.get l = f :: fs ∧
        s.kickLine l = { s with lineTx := s.lineTx.set l (some ⟨f, false⟩), traffic := s.traffic.set l fs }) := by
  unfold State.kickLine
  cases ht : s.lineTx.get l with
  | some o => exact .inl rfl
  | none =>
    cases hr : s.replies.get l with
    | cons r rs => exact .inr (.inl ⟨rfl, r, rs, rfl, rfl⟩)
    | nil =>
      cases hf : s.traffic.get l with
      | cons f fs => exact .inr (.inr ⟨rfl, rfl, f, fs, rfl, rfl⟩)
      | nil => exact .inl rfl

/-- What the tap transmitter does when it is kicked: nothing, or it takes the oldest frame. -/
theorem kickTap_cases (s : State) :
    s.kickTap = s ∨ (s.tapTx = none ∧ ∃ d ds, s.delivery = d :: ds ∧ s.kickTap = { s with tapTx := some d, delivery := ds }) := by
  unfold State.kickTap
  cases ht : s.tapTx with
  | some o => exact .inl rfl
  | none =>
    cases hd : s.delivery with
    | cons d ds => exact .inr ⟨rfl, d, ds, rfl, rfl⟩
    | nil => exact .inl rfl

theorem State.Within.kickLine {s : State} (h : s.Within) (l : Line) : (s.kickLine l).Within := by
  obtain e | ⟨-, r, rs, hr, e⟩ | ⟨-, -, f, fs, hf, e⟩ := kickLine_cases s l
  · rwa [e]
  · have hl := h.replies l
    rw [hr] at hl
    rw [e]
    exact { h with replies := PerLine.forall_set (Q := fun v : List Outgoing => v.length ≤ Config.replyCapacity) h.replies l (Nat.le_of_succ_le hl) }
  · have hl := h.traffic l
    rw [hf] at hl
    rw [e]
    exact { h with traffic := PerLine.forall_set (Q := fun v : List Frame => v.length ≤ Config.trafficCapacity) h.traffic l (Nat.le_of_succ_le hl) }

theorem State.Within.kickTap {s : State} (h : s.Within) : s.kickTap.Within := by
  obtain e | ⟨-, d, ds, hd, e⟩ := kickTap_cases s
  · rwa [e]
  · have hl := h.delivery
    rw [hd] at hl
    rw [e]
    exact { h with delivery := Nat.le_of_succ_le hl }

theorem State.Within.count {s : State} (h : s.Within) (p : Port) (c : Counter) : (s.count p c).Within :=
  { h with counters := PerPort.forall_set (Q := fun v : Counters => v.inRange = true) h.counters p (Counters.inRange_bump c (h.counters p)) }

/-- A traffic FIFO with room has room for one frame more. -/
theorem State.Within.trafficAppended {s : State} (h : s.Within) (l : Line) (f : Frame)
    (hl : (s.traffic.get l).length < Config.trafficCapacity) :
    ({ s with traffic := s.traffic.set l (s.traffic.get l ++ [f]) } : State).Within :=
  { h with
    traffic := PerLine.forall_set (Q := fun v : List Frame => v.length ≤ Config.trafficCapacity) h.traffic l
      (by rw [List.length_append]; exact hl) }

theorem State.Within.placeTraffic {s : State} (h : s.Within) (l : Line) (f : Frame) : (s.placeTraffic l f).Within := by
  unfold State.placeTraffic
  split
  · exact (h.trafficAppended l f ‹_›).kickLine l
  · exact h.count _ _

theorem State.Within.carryTraffic {s : State} (h : s.Within) (l : Line) (f : Frame) : (s.carryTraffic l f).Within := by
  unfold State.carryTraffic
  split
  · exact (h.trafficAppended l f ‹_›).kickLine l
  · exact h

theorem State.Within.deliveryAppended {s : State} (h : s.Within) (o : Outgoing) (hl : s.delivery.length < Config.deliveryCapacity) :
    ({ s with delivery := s.delivery ++ [o] } : State).Within :=
  { h with delivery := by rw [List.length_append]; exact hl }

theorem State.Within.placeDelivery {s : State} (h : s.Within) (f : Frame) : (s.placeDelivery f).Within := by
  unfold State.placeDelivery
  split
  · exact (h.deliveryAppended _ ‹_›).kickTap
  · exact h.count _ _

theorem State.Within.appendReply {s : State} (h : s.Within) (l : Line) (o : Outgoing)
    (hl : (s.replies.get l).length < Config.replyCapacity) : (s.appendReply l o).Within :=
  State.Within.kickLine (s := { s with replies := s.replies.set l (s.replies.get l ++ [o]) })
    { h with
      replies := PerLine.forall_set (Q := fun v : List Outgoing => v.length ≤ Config.replyCapacity) h.replies l
        (by rw [List.length_append]; exact hl) } l

theorem State.Within.placeReply {s : State} (h : s.Within) (p : Port) (o : Outgoing) : (s.placeReply p o).Within := by
  unfold State.placeReply
  split
  · rename_i hr
    cases p with
    | east => exact h.appendReply .east o (of_decide_eq_true hr)
    | west => exact h.appendReply .west o (of_decide_eq_true hr)
    | tap => exact (h.deliveryAppended o (of_decide_eq_true hr)).kickTap
  · exact h.count _ _

theorem State.Within.addFault {s : State} (h : s.Within) (r : FaultRecord) : (s.addFault r).Within := by
  have hf := h.faults
  unfold State.addFault
  split
  · exact { h with faults := by rw [List.length_append]; assumption }
  · refine { h with faults := ?_, overflow := ?_ }
    · rw [List.length_append, List.length_drop]
      have : 1 ≤ Config.faultCapacity := by decide
      exact by simp only [List.length_singleton]; omega
    · dsimp only
      split
      · assumption
      · exact h.overflow

theorem State.Within.volatileReset (s : State) (o : OpState) : (s.volatileReset o).Within :=
  ⟨fun p => by cases p <;> exact Nat.zero_le _, fun l => by cases l <;> exact Nat.zero_le _, fun l => by cases l <;> exact Nat.zero_le _,
    Nat.zero_le _, Nat.zero_le _, Nat.zero_le _, Nat.zero_le _, Nat.zero_le _, fun p => by cases p <;> exact Counters.inRange_zero⟩

/-- Every update keeps the capacities: what appends to a FIFO, the queue or a list has looked for room before. -/
theorem within_stable : StableCommands State.Within where
  toStableWork := StableWork.ofWork (fun _ _ _ _ _ _ _ h => { h with })
  setSeg _ _ _ _ h := { h with }
  allocate _ g h := allocate_keeps (P := State.Within) (fun _ _ _ h => { h with }) g h
  openConfigSegment _ g h := openConfigSegment_keeps (P := State.Within) (fun _ _ _ h => { h with }) g h
  setAllSegments _ m h := setAllSegments_keeps (P := State.Within) (fun _ _ _ h => { h with }) m h
  programmed _ _ _ h := { h with }
  erasedCfg _ _ h := { h with }
  torn _ _ h := { h with }
  setPosition _ _ _ h := { h with }
  resolved _ _ _ _ h := { h with }
  dequeued _ _ hq h := { h with queue := Nat.le_trans hq h.queue }
  issue _ _ h := { h with }
  addFault _ r h := h.addFault r
  placeReply _ p o h := h.placeReply p o
  remember _ _ _ _ _ h := { h with }
  config _ _ h := { h with }
  opState _ _ _ h := { h with }
  internalReset s _ := State.Within.volatileReset s _
  unstaged _ h := { h with staging := Nat.zero_le _ }
  staged _ _ es _ _ _ hl h := { h with staging := by rw [List.length_append]; exact hl }
  enqueued _ r hl h := { h with queue := by rw [List.length_append]; exact hl }
  clearFaults _ h := { h with faults := Nat.zero_le _, overflow := Nat.zero_le _ }
  count _ p c h := h.count p c
  clearCounters _ p h :=
    { h with counters := PerPort.forall_set (Q := fun v : Counters => v.inRange = true) h.counters p Counters.inRange_zero }
  placeTraffic _ l f h := h.placeTraffic l f
  carryTraffic _ l f h := h.carryTraffic l f
  placeDelivery _ f h := h.placeDelivery f
  taken s p f rest e h :=
    { h with
      ingress := PerPort.forall_set (Q := fun v : List Frame => v.length ≤ Config.ingressCapacity) h.ingress p
        (by have := h.ingress p; rw [e] at this; exact Nat.le_of_succ_le this) }
  arrived s p f hr h :=
    { h with
      ingress := PerPort.forall_set (Q := fun v : List Frame => v.length ≤ Config.ingressCapacity) h.ingress p
        (by rw [List.length_append]; exact of_decide_eq_true hr) }
  lineSent s l h := State.Within.kickLine (s := { s with lineTx := s.lineTx.set l none }) { h with } l
  tapSent s h := State.Within.kickTap (s := { s with tapTx := none }) { h with }
  guardLevel _ _ h := { h with }
  reset s o _ := State.Within.volatileReset s o
  resetLevel _ _ h := { h with }
  standing s h :=
    { h with
      counters := fun p => by
        cases p
        · exact Counters.inRange_countReceived _ (h.counters .east)
        · exact Counters.inRange_countReceived _ (h.counters .west)
        · exact Counters.inRange_countReceived _ (h.counters .tap) }

/-- Settles O5: every update that lengthens a list or raises a count has looked for room or stops at the end of its range. -/
theorem stepKeepsTheCapacities : Obligations.StepKeepsTheCapacities := by
  intro s t hs he
  rw [State.withinCapacity_iff] at hs ⊢
  exact step_keeps within_stable (fun _ _ h => { h with }) (fun _ _ h => { h with }) hs he

/-! ## The Staging Buffer -/

theorem distinctChannels_iff (es : List Entry) : distinctChannels es = true ↔ (es.map Entry.channel).Nodup := by
  induction es with
  | nil => simp [distinctChannels]
  | cons e es ih =>
    simp only [distinctChannels, Bool.and_eq_true, List.all_eq_true, decide_eq_true_eq, List.map_cons, List.nodup_cons, ih,
      List.mem_map, not_exists, not_and]

/-- No duplicate is found exactly when the channels are distinct and none was seen before (R36). -/
theorem firstDuplicate_eq_none_iff (pos : Nat) (seen : List Nat) (es : List Entry) :
    firstDuplicate pos seen es = none ↔ (es.map Entry.channel).Nodup ∧ ∀ e ∈ es, e.channel ∉ seen := by
  induction es generalizing pos seen with
  | nil => simp [firstDuplicate]
  | cons e es ih =>
    simp only [firstDuplicate]
    split
    · rename_i h
      simp [h]
    · rename_i h
      simp only [ih, List.mem_cons, not_or, List.map_cons, List.nodup_cons, List.mem_map, not_exists, not_and, forall_eq_or_imp]
      constructor
      · rintro ⟨hn, hx⟩
        exact ⟨⟨fun x hx' => (hx x hx').1, hn⟩, h, fun x hx' => (hx x hx').2⟩
      · rintro ⟨⟨hc, hn⟩, -, hs⟩
        exact ⟨hn, fun x hx => ⟨hc x hx, hs x hx⟩⟩

theorem Staging.consistent_iff (b : Staging) :
    b.consistent = true ↔
      b.owner.isSome = !b.entries.isEmpty ∧ b.tag.isSome = !b.entries.isEmpty ∧ b.timer = !b.entries.isEmpty ∧
        (b.entries.map Entry.channel).Nodup := by
  simp only [Staging.consistent, Bool.and_eq_true, beq_iff_eq, distinctChannels_iff, and_assoc]

theorem Staging.consistent_reset : Staging.reset.consistent = true := rfl

/-- An accepted STAGE keeps the buffer's form. -/
theorem Staging.consistent_staged {b : Staging} (o : Origin) {es : List Entry} (hne : es ≠ [])
    (hd : firstDuplicate 1 (b.entries.map Entry.channel) es = none) (h : b.consistent = true) :
    ({ entries := b.entries ++ es, owner := if b.entries.isEmpty then some o.port else b.owner, timer := true, tag := some o.tag } :
      Staging).consistent = true := by
  rw [Staging.consistent_iff] at h ⊢
  obtain ⟨hn, hs⟩ := (firstDuplicate_eq_none_iff _ _ _).1 hd
  have hne' : (b.entries ++ es).isEmpty = false := by simp [hne]
  refine ⟨?_, by simp [hne'], by simp [hne'], ?_⟩
  · simp only [hne', Bool.not_false]
    split
    · rfl
    · rename_i hb
      rw [h.1, Bool.eq_false_iff.2 hb]
      rfl
  · rw [List.map_append, List.nodup_append]
    refine ⟨h.2.2.2, hn, ?_⟩
    intro c hc d hd' e
    obtain ⟨x, hx, rfl⟩ := List.mem_map.1 hd'
    exact hs x hx (e ▸ hc)

/-- Every update but an accepted STAGE leaves the Staging Buffer alone or empties it. -/
theorem staging_stable : StableCommands (fun s => s.staging.consistent = true) where
  toStableWork := StableWork.ofWork (fun _ _ _ _ _ _ _ h => h)
  setSeg _ _ _ _ h := h
  allocate _ g h := allocate_keeps (P := fun s => s.staging.consistent = true) (fun _ _ _ h => h) g h
  openConfigSegment _ g h := openConfigSegment_keeps (P := fun s => s.staging.consistent = true) (fun _ _ _ h => h) g h
  setAllSegments _ m h := setAllSegments_keeps (P := fun s => s.staging.consistent = true) (fun _ _ _ h => h) m h
  programmed _ _ _ h := h
  erasedCfg _ _ h := h
  torn _ _ h := h
  setPosition _ _ _ h := h
  resolved _ _ _ _ h := h
  dequeued _ _ _ h := h
  issue _ _ h := h
  addFault s r h := by simpa using h
  placeReply _ _ _ h := by simpa using h
  remember _ _ _ _ _ h := h
  config _ _ h := h
  opState _ _ _ h := h
  internalReset _ _ := Staging.consistent_reset
  unstaged _ _ := Staging.consistent_reset
  staged _ o es _ hne hd _ h := Staging.consistent_staged o hne hd h
  enqueued _ _ _ h := h
  clearFaults _ h := h
  count _ _ _ h := h
  clearCounters _ _ h := h
  placeTraffic _ _ _ h := by simpa using h
  carryTraffic _ _ _ h := by simpa using h
  placeDelivery _ _ h := by simpa using h
  taken _ _ _ _ _ h := h
  arrived _ _ _ _ h := h
  lineSent _ _ h := by simpa using h
  tapSent _ h := by simpa using h
  guardLevel _ _ h := h
  reset _ _ _ := Staging.consistent_reset
  resetLevel _ _ h := h
  standing _ h := h

/-- Settles O6: an accepted STAGE sets owner, tag and timer with its entries, whose channels it has compared with those in the
buffer; everything else that touches the buffer empties it. -/
theorem stepKeepsTheStagingBufferConsistent : Obligations.StepKeepsTheStagingBufferConsistent :=
  fun _ _ hs he => step_keeps staging_stable (fun _ _ h => h) (fun _ _ h => h) hs he

end Sys2Proof.Machine
end

section
/-! PROOF. The canonical form alone does not keep slots moving forward (R6): a counterexample to O8. -/

namespace Sys2Proof.Machine

open Sys2Proof

/-! ## A canonical state in which an erase completion is followed by a reset at the same event

A current erase stands beside a suspended-erase record, and its bank holds a program claim: no run of the unit comes to this, but
the canonical form allows it. The erase completion blanks segment 0 and grants the program claim. Two ABANDONs that wait in an
ingress FIFO end the erase and the recorded one, a RESTART starts whose replies are all lost, and the reset at the same event cuts
the granted program short: its slot is indeterminate, and the slot that was VOID stays BLANK. -/

/-- The record of a suspended erase of segment 8, as the ABANDONs name it. -/
def recordedErase : EraseRec := ⟨8, ⟨.east, 9⟩, none, .claimed, 0, 0, false, []⟩

/-- The ABANDON of the request with tag 9, on the line. -/
def abandonFrame (tag : Byte) : Frame := buildFrame 0 [0, 0, 0, tag, 0x13, 0, 9]

/-- Slot 3 of segment 0 is VOID, an erase of the segment runs, and its completion is the next command. -/
def eraseBesideRecord : State :=
  { State.reset with
    resetAsserted := false
    opState := .running
    store := { Store.delivered with slots := [(3, .void)] }
    op := .erase ⟨0, ⟨.tap, 1⟩, none, .running, 0, 0, false, []⟩
    suspended := some recordedErase
    banks :=
      { State.reset.banks with
        b0 := { BankUnit.reset with state := .eraseRunning, claim := some (.program ⟨.void, .slot ⟨0, 5⟩ .void⟩) } }
    queue := [⟨⟨.west, 1⟩, .restart⟩]
    ingress := { State.reset.ingress with east := [abandonFrame 1, abandonFrame 2] }
    replies := { State.reset.replies with west := List.replicate 4 ⟨[], false⟩ }
    pending := [.eraseCompletion 0] }

/-- What a slot holds in the next state of an outcome. -/
def slotAfter (a : SlotAddr) : Host.Outcome State Fault Refusal → Option Slot
  | .next t => some (t.store.slot a)
  | _ => none

theorem slotAfter_blanked : slotAfter ⟨0, 3⟩ (step eraseBesideRecord) = some .blank := by decide +kernel

theorem slotAfter_cutShort : slotAfter ⟨0, 5⟩ (step eraseBesideRecord) = some .indeterminate := by decide +kernel

/-- Refutes O8: in `eraseBesideRecord` slot 3 of segment 0 goes from VOID to BLANK at an ERASE_COMPLETION that does not leave every
slot of its segment BLANK, slot 5 being indeterminate. -/
theorem not_stepMovesSlotsForwardOnly : ¬ Obligations.StepMovesSlotsForwardOnly := by
  intro h
  obtain ⟨t, ht⟩ : ∃ t, step eraseBesideRecord = .next t :=
    exec_next (.eraseCompletion 0) { eraseBesideRecord with pending := [] }
  have h3 := slotAfter_blanked
  have h5 := slotAfter_cutShort
  rw [ht] at h3 h5
  obtain hf | ⟨-, hb, -⟩ := h eraseBesideRecord t (by decide) ht ⟨0, 3⟩ (by decide)
  · rw [Option.some.inj h3] at hf
    exact absurd hf (by decide)
  · exact absurd ((hb 5 (by decide)).symm.trans (Option.some.inj h5)) (by decide)

end Sys2Proof.Machine
end

section
/-! PROOF. What every step leaves behind (R72, R73, R75, R125, R136, R137): no head to take, no transmitter to start, no reason or
resume condition to take up. -/

namespace Sys2Proof.Machine

open Sys2Proof

/-! ## The commands that do not settle -/

/-- What a command may leave without the end of an event: nothing new, a reset, a level, the Staging Buffer expired, a transmission
ended, the record of the current erase changed, a step of a configuration rotation. -/
inductive Unsettled (s : State) : State → Prop
  | same : Unsettled s s
  | level (r g : Bool) : Unsettled s { s with resetAsserted := r, guardRelease := g }
  | reset (u : State) (o : OpState) : Unsettled s (u.volatileReset o)
  | mountBegun (u : State) : Unsettled s (u.volatileReset .mounting).beginMount
  | expired (r : FaultRecord) : Unsettled s (({ s with staging := Staging.reset } : State).addFault r)
  | lineSent (l : Line) : Unsettled s (({ s with lineTx := s.lineTx.set l none } : State).kickLine l)
  | tapSent : Unsettled s ({ s with tapTx := none } : State).kickTap
  | awaited {u : State} (r : RestartRec) : Unsettled s u → Unsettled s { u with op := .restart r }
  | eraseStep (e e' : EraseRec) : s.op = .erase e → e'.step ≠ .running → e'.step ≠ .suspended →
      Unsettled s { s with op := .erase e' }
  | intervalEnds (e : EraseRec) : s.op = .erase e → Unsettled s (s.intervalEnds e)
  | configErased (w w' : ConfigWrite) (g : CfgSeg) : s.op = .configWrite w → Unsettled s (s.configErased w' g)
  | configStep (w : ConfigWrite) : Unsettled s { s with op := .configWrite w }

theorem unsettled_awaitedSent {s u : State} (h : Unsettled s u) : Unsettled s u.awaitedSent := by
  unfold State.awaitedSent
  split
  · split
    · exact .mountBegun u
    · exact .awaited _ h
  · exact h

theorem unsettled_sent {s u : State} (o : Outgoing) (h : Unsettled s u) : Unsettled s (u.sent o) := by
  unfold State.sent
  split
  · exact unsettled_awaitedSent h
  · exact h

theorem completes_settles (s : State) (role : ProgramRole) (pass : Bool) :
    (∃ u : State, s.completes role pass = u.settle) ∨ s.completes role pass = s := by
  unfold State.completes
  split
  · split
    · exact .inl ⟨_, rfl⟩
    · exact .inr rfl
  · exact .inr rfl

theorem receive_settles (s : State) (k : ReqKind) (p : Port) (tag : Byte) (ps : List Byte) :
    (∃ u : State, s.receive k p tag ps = u.settle) ∨ s.receive k p tag ps = s := by
  unfold State.receive
  split
  · exact .inl ⟨_, rfl⟩
  · exact .inr rfl

theorem rotationAt_some {s : State} {step : ConfigStep} {w : ConfigWrite} {g : CfgSeg} (h : s.rotationAt step = some (w, g)) :
    s.op = .configWrite w ∧ w.step = step ∧ w.target = some g := by
  unfold State.rotationAt at h
  split at h
  · rename_i w' hw
    split at h
    · rename_i hs
      obtain ⟨g', hg, e⟩ := Option.map_eq_some_iff.1 h
      injection e with e1 e2
      subst e1 e2
      exact ⟨hw, hs, hg⟩
    · cases h
  · cases h

/-- A command ends with the end of an event, or in one of the ways of `Unsettled`. -/
theorem exec_settles {c : Instr} {s t : State} (h : exec c s = .next t) : (∃ u : State, t = u.settle) ∨ Unsettled s t := by
  have next : ∀ {x : State}, (Host.Outcome.next x : Host.Outcome State Fault Refusal) = .next t →
      ((∃ u : State, x = u.settle) ∨ Unsettled s x) → (∃ u : State, t = u.settle) ∨ Unsettled s t := by
    intro x e hx
    injection e with e
    exact e ▸ hx
  have same : ∀ {x : State}, ((∃ u : State, x = u.settle) ∨ x = s) → (∃ u : State, x = u.settle) ∨ Unsettled s x := by
    rintro x (hx | rfl)
    · exact .inl hx
    · exact .inr .same
  cases c with
  | powerOn =>
    refine next h (.inr ?_)
    unfold State.powerUp
    split
    · exact .reset s _
    · exact .mountBegun s
  | lossOfPower => exact next h (.inr (.reset s _))
  | resetAssertion =>
    refine next h (.inr ?_)
    split
    · exact .reset _ _
    · exact .level true s.guardRelease
  | resetRelease =>
    refine next h ?_
    split
    · exact .inl ⟨_, rfl⟩
    · exact .inr (.level false s.guardRelease)
  | guardReleaseChange b => exact next h (.inr (.level s.resetAsserted b))
  | frameArrival p f =>
    simp only [exec, execFrameArrival] at h
    split at h
    · exact next h (.inr .same)
    all_goals exact next h (.inl ⟨_, rfl⟩)
  | lookupReadCompletion p m =>
    simp only [exec, execLookupReadCompletion] at h
    split at h
    · exact next h (.inl ⟨_, rfl⟩)
    · exact next h (.inr .same)
  | readSlotCompletion b m =>
    simp only [exec, execReadSlotCompletion] at h
    split at h
    · exact next h (.inl ⟨_, rfl⟩)
    · exact next h (.inr .same)
  | sourceReadCompletion m =>
    simp only [exec, execSourceReadCompletion] at h
    split at h
    · exact next h (.inl ⟨_, rfl⟩)
    · exact next h (.inr .same)
  | holdTimerExpiry p =>
    simp only [exec, execHoldTimerExpiry] at h
    split at h
    · exact next h (.inl ⟨_, rfl⟩)
    · exact next h (.inr .same)
  | lineTransmissionCompletion l =>
    simp only [exec, execLineTransmissionCompletion] at h
    split at h
    · exact next h (.inr (unsettled_sent _ (.lineSent l)))
    · exact next h (.inr .same)
  | tapTransmissionCompletion =>
    simp only [exec, execTapTransmissionCompletion] at h
    split at h
    · exact next h (.inr (unsettled_sent _ .tapSent))
    · exact next h (.inr .same)
  | programDeadlineExpiry =>
    simp only [exec, execProgramDeadlineExpiry] at h
    split at h
    · exact next h (.inl ⟨_, rfl⟩)
    · exact next h (.inr .same)
  | eraseCompletion us =>
    simp only [exec, execEraseCompletion] at h
    split at h
    · refine next h ?_
      unfold State.eraseCompletes
      split
      all_goals first | exact .inl ⟨_, rfl⟩ | exact .inr .same
    · exact next h (.inr .same)
  | suspendCompletion us =>
    simp only [exec, execSuspendCompletion] at h
    split at h
    · refine next h ?_
      unfold State.suspendCompletes
      split
      all_goals first | exact .inl ⟨_, rfl⟩ | exact .inr .same
    · exact next h (.inr .same)
  | stopCompletion us =>
    simp only [exec, execStopCompletion] at h
    split at h
    · split at h
      · exact next h (.inl ⟨_, rfl⟩)
      · exact next h (.inr .same)
    · exact next h (.inr .same)
  | eraseTimeoutExpiry =>
    simp only [exec, execEraseTimeoutExpiry] at h
    split at h
    · rename_i e he
      split at h
      · exact next h (.inr (.eraseStep e _ he (by simp) (by simp)))
      · exact next h (.inr (.eraseStep e _ he (by simp) (by simp)))
      · rename_i hs
        have hh : (e.hold .timeout).step = .suspending := by
          unfold EraseRec.hold
          split <;> exact hs
        exact next h (.inr (.eraseStep e _ he (by rw [hh]; decide) (by rw [hh]; decide)))
      · exact next h (.inr .same)
    · exact next h (.inr .same)
  | runIntervalTimerExpiry =>
    simp only [exec, execRunIntervalTimerExpiry] at h
    split at h
    · rename_i e he
      refine next h ?_
      split
      · exact .inr (.intervalEnds e he)
      · exact .inr .same
    · exact next h (.inr .same)
  | idleTimerExpiry =>
    simp only [exec, execIdleTimerExpiry] at h
    split at h
    · exact next h (.inr (.expired _))
    · exact next h (.inr .same)
  | configEraseCompletion =>
    simp only [exec, execConfigEraseCompletion] at h
    split at h
    · exact next h (.inr (.configErased _ _ _ (rotationAt_some ‹_›).1))
    · exact next h (.inr .same)
  | configEraseTimeout =>
    simp only [exec, execConfigEraseTimeout] at h
    split at h
    · exact next h (.inr (.configStep _))
    · exact next h (.inr .same)
  | configStopCompletion =>
    simp only [exec, execConfigStopCompletion] at h
    split at h
    · exact next h (.inl ⟨_, rfl⟩)
    · exact next h (.inr .same)
  | headerReadCompletion m =>
    simp only [exec, execHeaderReadCompletion] at h
    split at h
    · exact next h (.inl ⟨_, rfl⟩)
    · exact next h (.inr .same)
  | slotScanReadCompletion m =>
    simp only [exec, execSlotScanReadCompletion] at h
    split at h
    · exact next h (.inl ⟨_, rfl⟩)
    · exact next h (.inr .same)
  | restartDrainExpiry =>
    simp only [exec, execRestartDrainExpiry] at h
    split at h
    · exact next h (.inr (.mountBegun s))
    · exact next h (.inr .same)
  | writeProgramCompletion b => exact next h (same (completes_settles s _ _))
  | sealProgramCompletion b => exact next h (same (completes_settles s _ _))
  | settleProgramCompletion b => exact next h (same (completes_settles s _ _))
  | voidProgramCompletion b => exact next h (same (completes_settles s _ _))
  | stampProgramCompletion b => exact next h (same (completes_settles s _ _))
  | configStampCompletion b => exact next h (same (completes_settles s _ _))
  | configWriteCompletion b => exact next h (same (completes_settles s _ _))
  | configVoidCompletion b => exact next h (same (completes_settles s _ _))
  | repairProgramCompletion b => exact next h (same (completes_settles s _ _))
  | status p tag ps => exact next h (same (receive_settles s _ _ _ _))
  | describe p tag ps => exact next h (same (receive_settles s _ _ _ _))
  | readSlot p tag ps => exact next h (same (receive_settles s _ _ _ _))
  | readIndex p tag ps => exact next h (same (receive_settles s _ _ _ _))
  | readCounters p tag ps => exact next h (same (receive_settles s _ _ _ _))
  | readCountersWithClear p tag b => exact next h (same (receive_settles s _ _ _ _))
  | readFaults p tag ps => exact next h (same (receive_settles s _ _ _ _))
  | readConfig p tag ps => exact next h (same (receive_settles s _ _ _ _))
  | clearFaults p tag ps => exact next h (same (receive_settles s _ _ _ _))
  | stage p tag ps => exact next h (same (receive_settles s _ _ _ _))
  | unstage p tag ps => exact next h (same (receive_settles s _ _ _ _))
  | abandon p tag ps => exact next h (same (receive_settles s _ _ _ _))
  | setModeRun p tag => exact next h (same (receive_settles s _ _ _ _))
  | setModeBypass p tag => exact next h (same (receive_settles s _ _ _ _))
  | commit p tag ps => exact next h (same (receive_settles s _ _ _ _))
  | erase p tag ps => exact next h (same (receive_settles s _ _ _ _))
  | reclaim p tag ps => exact next h (same (receive_settles s _ _ _ _))
  | setConfig p tag ps => exact next h (same (receive_settles s _ _ _ _))
  | restart p tag ps => exact next h (same (receive_settles s _ _ _ _))

/-! ## No head to take (R125) -/

theorem drained_volatileReset (s : State) (o : OpState) : (s.volatileReset o).drained = true := rfl

theorem drained_unsettled {s t : State} (h : Unsettled s t) (hs : s.drained = true) : t.drained = true := by
  induction h with
  | same => exact hs
  | level r g => exact hs
  | reset u o => exact drained_volatileReset u o
  | mountBegun u => exact drained_banks.claimRead (s := { u.volatileReset .mounting with opState := .mounting, op := _ }) _ rfl
  | expired r => exact hs ▸ State.drained_congr (by simp) (by simp)
  | lineSent l => exact hs ▸ State.drained_congr (by simp) (by simp)
  | tapSent => exact hs ▸ State.drained_congr (by simp) (by simp)
  | awaited r _ ih => exact ih
  | eraseStep e e' _ _ _ => exact hs
  | intervalEnds e _ =>
    unfold State.intervalEnds
    dsimp only
    split
    · exact drained_banks.lookAgain (s := { s with op := _ }) _ hs
    · exact hs
  | configErased w w' g _ =>
    exact drained_banks.claimProgram (s := { s.bumpErases g.id with store := _, op := _ }) _ hs
  | configStep w => exact hs

/-! ## No transmitter to start (R136, R137) -/

/-- Each line transmitter with nothing to send, or busy, and so the tap's. -/
structure State.Sending (s : State) : Prop where
  line : ∀ l, s.lineTx.get l ≠ none ∨ (s.replies.get l = [] ∧ s.traffic.get l = [])
  tap : s.tapTx ≠ none ∨ s.delivery = []

theorem State.sendersBusy_iff (s : State) : s.sendersBusy = true ↔ s.Sending := by
  simp only [State.sendersBusy, Bool.and_eq_true, Bool.or_eq_true, List.isEmpty_iff, Option.isSome_iff_ne_none]
  constructor
  · rintro ⟨⟨he, hw⟩, ht⟩
    exact ⟨fun l => by cases l <;> assumption, ht⟩
  · rintro ⟨hl, ht⟩
    exact ⟨⟨hl .east, hl .west⟩, ht⟩

/-- A line transmitter that is kicked is busy or has nothing to send, whatever was before; the other line stands. -/
theorem sending_kickLine {s : State} (l : Line)
    (hl : ∀ k, k ≠ l → s.lineTx.get k ≠ none ∨ (s.replies.get k = [] ∧ s.traffic.get k = []))
    (ht : s.tapTx ≠ none ∨ s.delivery = []) : (s.kickLine l).Sending := by
  refine ⟨fun k => ?_, by simpa using ht⟩
  by_cases e : k = l
  · subst e
    unfold State.kickLine
    cases hx : s.lineTx.get k with
    | some o => exact .inl (by rw [hx]; exact Option.some_ne_none o)
    | none =>
      cases hr : s.replies.get k with
      | cons r rs => exact .inl (by dsimp only; rw [PerLine.get_set_same]; exact Option.some_ne_none r)
      | nil =>
        cases hf : s.traffic.get k with
        | cons f fs => exact .inl (by dsimp only; rw [PerLine.get_set_same]; exact Option.some_ne_none _)
        | nil => exact .inr ⟨hr, hf⟩
  · have := hl k e
    obtain e' | ⟨-, r, rs, -, e'⟩ | ⟨-, -, f, fs, -, e'⟩ := kickLine_cases s l
    · rwa [e']
    · rw [e']
      simpa only [PerLine.get_set_other _ _ e] using this
    · rw [e']
      simpa only [PerLine.get_set_other _ _ e] using this

theorem sending_kickTap {s : State} (hl : ∀ l, s.lineTx.get l ≠ none ∨ (s.replies.get l = [] ∧ s.traffic.get l = [])) :
    s.kickTap.Sending := by
  refine ⟨by simpa using hl, ?_⟩
  unfold State.kickTap
  cases hx : s.tapTx with
  | some o => exact .inl (by rw [hx]; exact Option.some_ne_none o)
  | none =>
    cases hd : s.delivery with
    | cons d ds => exact .inl (Option.some_ne_none d)
    | nil => exact .inr hd

theorem State.Sending.trafficPlaced {s : State} (h : s.Sending) (l : Line) (f : Frame) :
    (({ s with traffic := s.traffic.set l (s.traffic.get l ++ [f]) } : State).kickLine l).Sending :=
  sending_kickLine l (fun k e => by simpa only [PerLine.get_set_other _ _ e] using h.line k) h.tap

theorem State.Sending.placeTraffic {s : State} (h : s.Sending) (l : Line) (f : Frame) : (s.placeTraffic l f).Sending := by
  unfold State.placeTraffic
  split
  · exact h.trafficPlaced l f
  · exact { h with }

theorem State.Sending.carryTraffic {s : State} (h : s.Sending) (l : Line) (f : Frame) : (s.carryTraffic l f).Sending := by
  unfold State.carryTraffic
  split
  · exact h.trafficPlaced l f
  · exact h

theorem State.Sending.placeDelivery {s : State} (h : s.Sending) (f : Frame) : (s.placeDelivery f).Sending := by
  unfold State.placeDelivery
  split
  · exact sending_kickTap (s := { s with delivery := _ }) h.line
  · exact { h with }

theorem State.Sending.appendReply {s : State} (h : s.Sending) (l : Line) (o : Outgoing) : (s.appendReply l o).Sending :=
  sending_kickLine (s := { s with replies := s.replies.set l (s.replies.get l ++ [o]) }) l
    (fun k e => by simpa only [PerLine.get_set_other _ _ e] using h.line k) h.tap

theorem State.Sending.placeReply {s : State} (h : s.Sending) (p : Port) (o : Outgoing) : (s.placeReply p o).Sending := by
  unfold State.placeReply
  split
  · cases p with
    | east => exact h.appendReply .east o
    | west => exact h.appendReply .west o
    | tap => exact sending_kickTap (s := { s with delivery := _ }) h.line
  · exact { h with }

theorem State.Sending.addFault {s : State} (h : s.Sending) (r : FaultRecord) : (s.addFault r).Sending := by
  unfold State.addFault
  split
  · exact { h with }
  · exact { h with }

theorem State.Sending.volatileReset (s : State) (o : OpState) : (s.volatileReset o).Sending :=
  ⟨fun l => .inr (by cases l <;> exact ⟨rfl, rfl⟩), .inr rfl⟩

/-- Every update that appends to an egress FIFO, or ends a transmission, kicks the transmitter. -/
theorem sending_stable : StableCommands State.Sending where
  toStableWork := StableWork.ofWork (fun _ _ _ _ _ _ _ h => { h with })
  setSeg _ _ _ _ h := { h with }
  allocate _ g h := allocate_keeps (P := State.Sending) (fun _ _ _ h => { h with }) g h
  openConfigSegment _ g h := openConfigSegment_keeps (P := State.Sending) (fun _ _ _ h => { h with }) g h
  setAllSegments _ m h := setAllSegments_keeps (P := State.Sending) (fun _ _ _ h => { h with }) m h
  programmed _ _ _ h := { h with }
  erasedCfg _ _ h := { h with }
  torn _ _ h := { h with }
  setPosition _ _ _ h := { h with }
  resolved _ _ _ _ h := { h with }
  dequeued _ _ _ h := { h with }
  issue _ _ h := { h with }
  addFault _ r h := h.addFault r
  placeReply _ p o h := h.placeReply p o
  remember _ _ _ _ _ h := { h with }
  config _ _ h := { h with }
  opState _ _ _ h := { h with }
  internalReset s _ := State.Sending.volatileReset s _
  unstaged _ h := { h with }
  staged _ _ _ _ _ _ _ h := { h with }
  enqueued _ _ _ h := { h with }
  clearFaults _ h := { h with }
  count _ _ _ h := { h with }
  clearCounters _ _ h := { h with }
  placeTraffic _ l f h := h.placeTraffic l f
  carryTraffic _ l f h := h.carryTraffic l f
  placeDelivery _ f h := h.placeDelivery f
  taken _ _ _ _ _ h := { h with }
  arrived _ _ _ _ h := { h with }
  lineSent s l h :=
    sending_kickLine (s := { s with lineTx := s.lineTx.set l none }) l
      (fun k e => by simpa only [PerLine.get_set_other _ _ e] using h.line k) h.tap
  tapSent s h := sending_kickTap (s := { s with tapTx := none }) h.line
  guardLevel _ _ h := { h with }
  reset s o _ := State.Sending.volatileReset s o
  resetLevel _ _ h := { h with }
  standing _ h := { h with }

/-! ## A bank read after an update of a bank -/

@[simp] theorem State.bank_setBank_same (s : State) (b : Bank) (u : BankUnit) : (s.setBank b u).bank b = u :=
  PerBank.get_set_same s.banks b u

theorem State.bank_setBank_other (s : State) {b c : Bank} (u : BankUnit) (h : c ≠ b) : (s.setBank b u).bank c = s.bank c :=
  PerBank.get_set_other s.banks u h

@[simp] theorem State.setBank_setBank (s : State) (b : Bank) (u v : BankUnit) : (s.setBank b u).setBank b v = s.setBank b v := by
  cases b <;> rfl

theorem State.setBank_self (s : State) (b : Bank) : s.setBank b (s.bank b) = s := by
  cases b <;> rfl

/-! ## No reason and no resume condition to take up (R72, R73, R75) -/

/-- The bank is at work that serves no reads: a claim made on it is recorded and waits (R98). -/
def BankState.withholds : BankState → Bool
  | .programming | .eraseRunning | .suspendWait => true
  | .free | .draining | .eraseSuspended => false

theorem makeClaim_of_withholds {s : State} {b : Bank} (c : Claim) (h : (s.bank b).state.withholds = true) :
    s.makeClaim b c = s.setBank b ((s.bank b).claimed c) := by
  unfold State.makeClaim
  split <;> rename_i hs
  all_goals first | rfl | exact absurd h (by rw [hs]; decide)

theorem makeClaim_granted {s : State} {b : Bank} (c : Claim) (h : (s.bank b).state.withholds = false) (hw : (s.bank b).waiting = 0) :
    s.makeClaim b c = (s.setBank b ((s.bank b).claimed c)).grant b c := by
  unfold State.makeClaim
  split <;> rename_i hs
  all_goals first | exact absurd h (by rw [hs]; decide) | exact if_pos hw

/-- Nothing of the current erase is left to take up: no reason stands while it is RUNNING, and where its resume condition holds at
SUSPENDED its bank, at other work, holds the resume claim already. -/
def State.TakenUp (s : State) : Prop :=
  ∀ e, s.op = .erase e →
    (e.step = .running → s.suspensionReason e.seg = false) ∧
    (e.step = .suspended → s.resumeAllowed e = true →
      (s.bank (bankOf e.seg)).state.withholds = true ∧
        (s.bank (bankOf e.seg)).claimed (.resume e.seg) = s.bank (bankOf e.seg))

theorem State.takenUp_of_noErase {s : State} (h : s.noErase) : s.TakenUp :=
  fun e he => absurd he (h e)

theorem State.takenUp_of_step {s : State} {e : EraseRec} (h : s.op = .erase e) (h1 : e.step ≠ .running) (h2 : e.step ≠ .suspended) :
    s.TakenUp := by
  intro e' he
  rw [h] at he
  cases he
  exact ⟨fun x => absurd x h1, fun x => absurd x h2⟩

theorem State.takenUp_of_running {s : State} {e : EraseRec} (h : s.op = .erase e) (hr : e.step = .running)
    (hn : s.suspensionReason e.seg = false) : s.TakenUp := by
  intro e' he
  rw [h] at he
  cases he
  exact ⟨fun _ => hn, fun x => nomatch hr.symm.trans x⟩

/-- What is taken up reads the current operation, the banks and the Request Queue only. -/
theorem State.takenUp_congr {s t : State} (ho : t.op = s.op) (hb : t.banks = s.banks) (hq : t.queue = s.queue) (h : s.TakenUp) :
    t.TakenUp := by
  unfold State.TakenUp State.suspensionReason State.resumeAllowed State.urgentHead State.bank
  rw [ho, hb, hq]
  exact h

/-- The resume condition means that nothing waits in the bank and no reason stands. -/
theorem waiting_of_resumeAllowed {s : State} {e : EraseRec} (h : s.resumeAllowed e = true) :
    (s.bank (bankOf e.seg)).queue = [] ∧ (s.bank (bankOf e.seg)).inFlight = none ∧ s.urgentHead = false := by
  unfold State.resumeAllowed at h
  simp only [Bool.and_eq_true, List.isEmpty_iff, Option.isNone_iff_eq_none, Bool.not_eq_true'] at h
  obtain ⟨⟨⟨hq, hi⟩, hu⟩, -⟩ := h
  exact ⟨hq, hi, hu⟩

theorem BankUnit.claimed_claimed {u : BankUnit} (c : Claim) : (u.claimed c).claimed c = u.claimed c := by
  cases h : u.inFlight <;> simp [BankUnit.claimed, BankUnit.waiting, h, Function.comp_def]

theorem examineReasons_eq {s : State} {e : EraseRec} (h : s.op = .erase e) (hr : e.step = .running)
    (hs : s.suspensionReason e.seg = true) : s.examineReasons = s.reasonAppears e := by
  unfold State.examineReasons
  rw [h]
  exact if_pos ⟨hr, hs⟩

theorem examineResume_eq {s : State} {e : EraseRec} (h : s.op = .erase e) (hr : e.step = .suspended)
    (hs : s.resumeAllowed e = true) : s.examineResume = s.makeClaim (bankOf e.seg) (.resume e.seg) := by
  unfold State.examineResume
  rw [h]
  exact if_pos ⟨hr, hs⟩

theorem examineResume_noop {s : State} (h : ∀ e, s.op = .erase e → e.step = .suspended → s.resumeAllowed e ≠ true) :
    s.examineResume = s := by
  unfold State.examineResume
  split
  · rename_i e he
    exact if_neg fun hc => h e he hc.1 hc.2
  · rfl

theorem reasonFresh_eq_false {s : State} (h : ∀ e, s.op = .erase e → e.step = .running → s.suspensionReason e.seg = false) :
    s.reasonFresh = false := by
  unfold State.reasonFresh
  split
  · rename_i e he
    by_cases hr : e.step = .running
    · simp [h e he hr]
    · simp [hr]
  · rfl

theorem reason_of_not_fresh {s : State} (h : s.reasonFresh = false) {e : EraseRec} (he : s.op = .erase e) (hr : e.step = .running) :
    s.suspensionReason e.seg = false := by
  unfold State.reasonFresh at h
  rw [he] at h
  simpa [hr] using h

/-- A reason that stands remains while the bank keeps its queue. -/
theorem suspensionReason_congr {s t : State} {g : Nat} (hb : (t.bank (bankOf g)).queue = (s.bank (bankOf g)).queue)
    (hq : t.queue = s.queue) : t.suspensionReason g = s.suspensionReason g := by
  unfold State.suspensionReason State.urgentHead
  rw [hb, hq]

theorem mapErase_of_erase {s : State} {e : EraseRec} (h : s.op = .erase e) (f : EraseRec → EraseRec) :
    s.mapErase f = { s with op := .erase (f e) } := by
  unfold State.mapErase
  rw [h]

/-- A second look finds a reason and the step SUSPENDING, or none and the step RUNNING. -/
theorem takenUp_lookAgain {s : State} {e : EraseRec} (e' : EraseRec) (h : s.op = .erase e) (hg : e'.seg = e.seg) :
    (s.lookAgain e').TakenUp := by
  unfold State.lookAgain
  rw [mapErase_of_erase h, mapErase_of_erase h]
  dsimp only
  split
  · exact State.takenUp_of_step (e := { e with step := .suspending }) rfl (by simp) (by simp)
  · rename_i hn
    refine State.takenUp_of_running (e := { e with step := .running }) rfl rfl ?_
    refine (suspensionReason_congr (s := s) (g := e.seg) ?_ ?_).trans ?_
    · rw [hg, State.bank_setBank_same]
    · rfl
    · rw [← hg]
      exact Bool.eq_false_iff.2 hn

/-- A reason that has appeared leaves the step WAITING or SUSPENDING. -/
theorem takenUp_reasonAppears {s : State} {e : EraseRec} (h : s.op = .erase e) : (s.reasonAppears e).TakenUp := by
  unfold State.reasonAppears
  rw [mapErase_of_erase h]
  dsimp only
  split
  · exact State.takenUp_of_step (e := { e with step := .waiting }) rfl (by simp) (by simp)
  · exact takenUp_lookAgain (e := { e with step := .waiting }) _ rfl rfl

theorem reasonFresh_of_takenUp {s : State} (h : s.TakenUp) : s.reasonFresh = false :=
  reasonFresh_eq_false fun e he => (h e he).1

theorem reasonFresh_examineReasons (s : State) : s.examineReasons.reasonFresh = false := by
  unfold State.examineReasons
  split
  · rename_i e he
    split
    · exact reasonFresh_of_takenUp (takenUp_reasonAppears he)
    · rename_i hn
      exact reasonFresh_eq_false fun e' he' hr => by
        rw [he] at he'
        cases he'
        exact Bool.eq_false_iff.2 fun hs => hn ⟨hr, hs⟩
  · rename_i hn
    exact reasonFresh_eq_false fun e he => absurd he (hn e)

/-- A resume claimed where its condition holds is granted, or waits in a bank at other work. -/
theorem takenUp_resumeClaimed {s : State} {e : EraseRec} (h : s.op = .erase e) (hr : e.step = .suspended)
    (ha : s.resumeAllowed e = true) : (s.makeClaim (bankOf e.seg) (.resume e.seg)).TakenUp := by
  obtain ⟨hq, hi, hu⟩ := waiting_of_resumeAllowed ha
  cases hw : (s.bank (bankOf e.seg)).state.withholds with
  | true =>
    rw [makeClaim_of_withholds _ hw]
    intro e' he'
    rw [State.op_setBank, h] at he'
    cases he'
    refine ⟨fun x => (nomatch hr.symm.trans x), fun _ _ => ⟨?_, ?_⟩⟩
    · rw [State.bank_setBank_same]
      exact hw
    · rw [State.bank_setBank_same]
      exact BankUnit.claimed_claimed _
  | false =>
    rw [makeClaim_granted _ hw (by simp [BankUnit.waiting, hq, hi])]
    unfold State.grant
    dsimp only
    rw [State.setBank_setBank, mapErase_of_erase (e := e) (by exact h)]
    refine State.takenUp_of_running (e := { e with step := .running, runTimer := true }) rfl rfl ?_
    refine (suspensionReason_congr (s := s) (g := e.seg) ?_ ?_).trans ?_
    · refine (congrArg BankUnit.queue (State.bank_setBank_same _ _ _)).trans ?_
      simp [BankUnit.claimed, hq]
    · rfl
    · simp [State.suspensionReason, hq, hu]

/-- The end of every event takes up what there is (log 10). -/
theorem takenUp_examineErase (s : State) : s.examineErase.TakenUp := by
  unfold State.examineErase
  have hf := reasonFresh_examineReasons s
  generalize s.examineReasons = u at hf
  by_cases hx : ∃ e, u.op = .erase e ∧ e.step = .suspended ∧ u.resumeAllowed e = true
  · obtain ⟨e, he, hr, ha⟩ := hx
    rw [examineResume_eq he hr ha]
    exact takenUp_resumeClaimed he hr ha
  · rw [examineResume_noop fun e he hr ha => hx ⟨e, he, hr, ha⟩]
    exact fun e he => ⟨reason_of_not_fresh hf he, fun hr ha => absurd ⟨e, he, hr, ha⟩ hx⟩

/-- To be examined is to have everything taken up. -/
theorem examined_iff {s : State} : s.examined = true ↔ s.TakenUp := by
  unfold State.examined
  rw [decide_eq_true_iff]
  constructor
  · intro h
    rw [← h]
    exact takenUp_examineErase s
  · intro h
    unfold State.examineErase
    rw [examineReasons_of_not_fresh (reasonFresh_of_takenUp h)]
    by_cases hx : ∃ e, s.op = .erase e ∧ e.step = .suspended ∧ s.resumeAllowed e = true
    · obtain ⟨e, he, hr, ha⟩ := hx
      obtain ⟨hw, hc⟩ := (h e he).2 hr ha
      rw [examineResume_eq he hr ha, makeClaim_of_withholds _ hw, hc, State.setBank_self]
    · exact examineResume_noop fun e he hr ha => hx ⟨e, he, hr, ha⟩

theorem examined_settle (u : State) : u.settle.examined = true :=
  examined_iff.2 (takenUp_examineErase _)

theorem op_claimRead {s : State} (h : s.noErase) (r : ReadTarget) : (s.claimRead r).op = s.op := by
  unfold State.claimRead
  dsimp only
  split
  · split
    · exact op_makeClaim h _ _
    · rfl
  · split
    · exact op_makeClaim h _ _
    · rfl

theorem noErase_of_op {s t : State} (h : s.noErase) (ho : t.op = s.op) : t.noErase :=
  fun e he => h e (ho ▸ he)

/-- The run interval timer plays no part in what is taken up. -/
theorem takenUp_timerEnds {s : State} {e : EraseRec} (h : s.op = .erase e) (ht : s.TakenUp) :
    ({ s with op := .erase { e with runTimer := false } } : State).TakenUp := by
  intro e' he'
  cases he'
  exact ht e h

theorem takenUp_unsettled {s t : State} (h : Unsettled s t) (hs : s.TakenUp) : t.TakenUp := by
  induction h with
  | same => exact hs
  | level r g => exact State.takenUp_congr rfl rfl rfl hs
  | reset u o => exact State.takenUp_of_noErase fun _ he => nomatch he
  | mountBegun u =>
    refine State.takenUp_of_noErase (noErase_of_op (fun _ he => ?_) (op_claimRead (fun _ he => ?_) _))
    all_goals cases he
  | expired r => exact State.takenUp_congr (by simp) (by simp) (by simp) hs
  | lineSent l => exact State.takenUp_congr (by simp) (by simp) (by simp) hs
  | tapSent => exact State.takenUp_congr (by simp) (by simp) (by simp) hs
  | awaited r _ ih => exact State.takenUp_of_noErase fun _ he => nomatch he
  | eraseStep e e' _ h1 h2 => exact State.takenUp_of_step (e := e') rfl h1 h2
  | intervalEnds e he =>
    unfold State.intervalEnds
    dsimp only
    split
    · exact takenUp_lookAgain (e := { e with runTimer := false }) _ rfl rfl
    · exact takenUp_timerEnds he hs
  | configErased w w' g _ =>
    refine State.takenUp_of_noErase (noErase_of_op (fun _ he => ?_) (op_claimProgram (fun _ he => ?_) _))
    all_goals cases he
  | configStep w => exact State.takenUp_of_noErase fun _ he => nomatch he

/-! ## The obligation -/

/-- What the end of an event establishes and the other commands keep, every step keeps. -/
theorem step_of_settles {P : State → Prop} (front : ∀ (s : State) (l : List Instr), P s → P { s with pending := l })
    (settle : ∀ u : State, P u.settle) (unsettled : ∀ s t : State, Unsettled s t → P s → P t) {s t : State} (hs : P s)
    (h : step s = .next t) : P t := by
  obtain ⟨-, rfl⟩ | ⟨c, rest, -, hx⟩ := step_cases h
  · exact hs
  · obtain ⟨u, rfl⟩ | hu := exec_settles hx
    · exact settle u
    · exact unsettled _ _ hu (front s rest hs)

/-- Settles O10: the end of an event drains the heads and examines the erase, and the commands without it bring nothing to take up;
whatever appends to an egress FIFO kicks its transmitter. -/
theorem stepLeavesNothingWaiting : Obligations.StepLeavesNothingWaiting := by
  unfold Obligations.StepLeavesNothingWaiting
  refine ⟨fun s t hs h => ?_, fun s t hs h => ?_, fun s t hs h => ?_⟩
  · exact step_of_settles (P := fun s => s.drained = true) (fun _ _ h => h) drained_settle (fun _ _ => drained_unsettled) hs h
  · rw [State.sendersBusy_iff] at hs ⊢
    exact step_keeps sending_stable (fun _ _ h => { h with }) (fun _ _ h => { h with }) hs h
  · rw [examined_iff] at hs ⊢
    exact step_of_settles (fun _ _ h => State.takenUp_congr rfl rfl rfl h) (fun u => takenUp_examineErase _)
      (fun _ _ => takenUp_unsettled) hs h

end Sys2Proof.Machine
end

section
/-! PROOF. The reads and updates of a named piece of State, and the values at reset (R10, R16, R142, R179). -/

namespace Sys2Proof.Machine

open Sys2Proof

/-! ## A piece read back after its update -/

theorem bankOf_eq {g : Nat} (h : g < 32) : bankOf g = if g < 8 then .b0 else if g < 16 then .b1 else if g < 24 then .b2 else .b3 := by
  revert g
  decide

theorem PerPort.get_set {α : Type} (x : PerPort α) (p q : Port) (v : α) : (x.set p v).get q = if q = p then v else x.get q := by
  split
  · rename_i h
    rw [h, PerPort.get_set_same]
  · rename_i h
    exact PerPort.get_set_other x v h

theorem PerLine.get_set {α : Type} (x : PerLine α) (l k : Line) (v : α) : (x.set l v).get k = if k = l then v else x.get k := by
  split
  · rename_i h
    rw [h, PerLine.get_set_same]
  · rename_i h
    exact PerLine.get_set_other x v h

theorem State.bank_setBank (s : State) (b c : Bank) (u : BankUnit) : (s.setBank b u).bank c = if c = b then u else s.bank c := by
  split
  · rename_i h
    rw [h, State.bank_setBank_same]
  · rename_i h
    exact State.bank_setBank_other s u h

theorem State.position_setPosition {s : State} (h : s.canonical = true) (ch x : Nat) (v : Option SlotAddr) :
    (s.setPosition ch v).position x = if x = ch then v else s.position x :=
  tablePut_position ch x v (State.index_wf h)

theorem State.segIs_iff (s : State) (g : Nat) (x : SegState) : s.segIs g x = true ↔ (s.seg g).state = some x := by
  unfold State.segIs
  exact decide_eq_true_iff

theorem Entry.isRoute_iff (e : Entry) : e.isRoute = true ↔ ∃ f : RouteFields, e.kind = .route f := by
  unfold Entry.isRoute
  cases e.kind <;> simp

theorem State.batch?_eq_some {s : State} {b : Batch} :
    s.batch? = some b ↔ s.op = .commit b ∨ ∃ r : ReclaimRec, s.op = .reclaim r ∧ r.stage = .writing b := by
  unfold State.batch?
  cases ho : s.op with
  | commit x => simp
  | reclaim r =>
    cases hr : r.stage with
    | writing x => simp [hr]
    | reading a l => simp [hr]
  | _ => simp

theorem State.setBatch_commit {s : State} {x : Batch} (b : Batch) (h : s.op = .commit x) : s.setBatch b = { s with op := .commit b } := by
  unfold State.setBatch
  rw [h]

theorem State.setBatch_reclaim {s : State} {r : ReclaimRec} (b : Batch) (h : s.op = .reclaim r) :
    s.setBatch b = { s with op := .reclaim { r with stage := .writing b } } := by
  unfold State.setBatch
  rw [h]

/-- The counters in the order of their block (Table 7-3). -/
def Counter.all : List Counter :=
  [.received, .check, .format, .ingressFull, .noRoute, .notAccepted, .holdExpired, .stale, .discarded, .noDeliverToSelf, .passed,
    .delivered, .mgmtConsumed, .mgmtPassed, .bypassed, .tapIdle, .egressFull, .replyLost]

theorem Counter.place_of_all {i : Nat} {d : Counter} (h : Counter.all[i]? = some d) : d.place = i := by
  have key : ∀ i, i < 18 → ∀ d ∈ Counter.all[i]?, d.place = i := by decide
  obtain ⟨hi, -⟩ := List.getElem?_eq_some_iff.1 h
  exact key i hi d h

theorem Counter.place_inj {c d : Counter} : c.place = d.place ↔ d = c := by
  cases c <;> cases d <;> decide

/-- A counted event raises the counter of its name by one, saturating, and no other of its port (R142). -/
theorem State.toList_count (s : State) (p : Port) (c : Counter) {i : Nat} {d : Counter} {n : Nat} (hd : Counter.all[i]? = some d)
    (hn : (s.counters.get p).toList[i]? = some n) :
    ((s.count p c).counters.get p).toList[i]? = some (if d = c then saturate n else n) := by
  have he : (s.count p c).counters.get p = (s.counters.get p).bump c := PerPort.get_set_same _ _ _
  rw [he, Counters.toList_bump, List.getElem?_modify, hn, ← Counter.place_of_all hd]
  simp only [Counter.place_inj]
  rfl

/-- Settles O2. -/
theorem readsAndUpdatesTouchTheNamedPieceAlone : Obligations.ReadsAndUpdatesTouchTheNamedPieceAlone := by
  unfold Obligations.ReadsAndUpdatesTouchTheNamedPieceAlone
  refine ⟨fun _ => bankOf_eq, ⟨rfl, rfl⟩, fun s b c u => ⟨rfl, s.bank_setBank b c u⟩, fun s p q g => ⟨rfl, PerPort.get_set _ _ _ _⟩,
    fun _ x p q v => x.get_set p q v, fun _ x l k v => x.get_set l k v,
    fun s g x v hc => ⟨rfl, seg_setSeg (segs_of_canonical hc) g x v⟩,
    fun s ch x v hc => ⟨rfl, State.position_setPosition hc ch x v⟩, fun s g => ⟨rfl, rfl, rfl, s.segIs_iff g, rfl⟩,
    fun s g n x => ⟨rfl, rfl, rfl⟩, fun s b => ⟨State.batch?_eq_some, fun _ => State.setBatch_commit b, fun _ => State.setBatch_reclaim b⟩,
    fun b k => ⟨rfl, rfl⟩, Entry.isRoute_iff, fun s p c => ?_⟩
  exact ⟨rfl, fun q hq => PerPort.get_set_other _ _ hq, fun i d n => s.toList_count p c⟩

/-! ## The reset state -/

theorem State.atReset_reset : State.reset.AtReset := by
  constructor <;> rfl

/-- Settles O3: every invariant is evaluated on the one state; its index holds no position. -/
theorem resetStateHoldsTheResetValuesAndTheInvariants : Obligations.ResetStateHoldsTheResetValuesAndTheInvariants := by
  unfold Obligations.ResetStateHoldsTheResetValuesAndTheInvariants
  refine ⟨⟨State.atReset_reset, rfl, rfl, rfl, rfl, fun _ => rfl, fun _ => rfl, fun _ => rfl⟩, ?_⟩
  have hi : State.reset.indexGood := fun _ _ h => nomatch h
  have rest : State.reset.canonical = true ∧ State.reset.withinCapacity = true ∧ State.reset.staging.consistent = true ∧
      State.reset.drained = true ∧ State.reset.sendersBusy = true ∧ State.reset.heldByReset = true ∧
      State.reset.atMostOneOpen = true ∧ State.reset.atMostOneOpenCfg = true ∧ State.reset.oneErase = true ∧
      State.reset.originsDistinct = true ∧ State.reset.examined = true ∧ State.reset.ordered = true ∧ State.reset.sound = true := by
    decide +kernel
  obtain ⟨h1, h2, h3, h4, h5, h6, h7, h8, h9, h10, h11, h12, h13⟩ := rest
  exact ⟨h1, h2, h3, h4, h5, h6, h7, h8, h9, h10, h11, hi, h12, h13⟩

end Sys2Proof.Machine
end

section
/-! PROOF. Supply, RESET and GUARD RELEASE (R22, R79, R175, R177, R179 to R181), and the store after work cut short. -/

namespace Sys2Proof.Machine

open Sys2Proof

/-! ## No route erase current -/

theorem examineReasons_of_noErase {s : State} (h : s.noErase) : s.examineReasons = s :=
  examineReasons_of_not_fresh (reasonFresh_eq_false fun e he => absurd he (h e))

/-- With no route erase current there is nothing to examine. -/
theorem examineErase_of_noErase {s : State} (h : s.noErase) : s.examineErase = s := by
  unfold State.examineErase
  rw [examineReasons_of_noErase h]
  exact examineResume_noop fun e he => absurd he (h e)

theorem drained_of_ingress {s : State} (h : s.ingress = State.reset.ingress) : s.drained = true := by
  rw [State.drained_iff]
  intro p
  unfold State.takes
  rw [h]
  cases p <;> simp [State.reset, PerPort.get]

/-! ## Nothing under way -/

theorem State.quietInside_iff (s : State) : s.quietInside = true ↔
    s.program = none ∧ s.op = .idle ∧ s.banks = State.reset.banks ∧ s.cfgBank = CfgBank.reset ∧ s.stages = State.reset.stages := by
  simp only [State.quietInside, Bool.and_eq_true, decide_eq_true_eq, Option.isNone_iff_eq_none, and_assoc]

theorem cutProgram_none {s : State} (h : s.program = none) : s.cutProgram = s.store := by
  unfold State.cutProgram
  rw [h]

/-- With no program and no erase in progress a reset leaves the store as it is (R22). -/
theorem cutShort_idle {s : State} (hp : s.program = none) (hs : s.suspended = none) (he : s.noErase)
    (hw : ∀ w, s.op ≠ .configWrite w) : s.cutShort = s.store := by
  unfold State.cutShort
  rw [hs, cutProgram_none hp]
  dsimp only
  split
  · rename_i e h
    exact absurd h (he e)
  · rename_i w h
    exact absurd h (hw w)
  · rfl

theorem atReset_volatileReset (s : State) (o : OpState) : (s.volatileReset o).AtReset := by
  constructor <;> rfl

theorem mountBegun_volatileReset (s : State) : (s.volatileReset .mounting).beginMount.MountBegun where
  opState := rfl
  op := rfl
  banks := rfl
  rest := by constructor <;> rfl

/-- A mount that begins with the banks at rest reads header 0 in bank 0 (R184, R185). -/
theorem beginMount_eq {s : State} (h : s.banks = State.reset.banks) :
    s.beginMount = { s with
      opState := .mounting
      op := .mount Mount.start
      banks := { State.reset.banks with b0 := { BankUnit.reset with inFlight := some ⟨.header 0, .engine, false⟩ } } } := by
  cases s
  subst h
  rfl

theorem countStanding_none {s : State} (h : s.ingress = State.reset.ingress) : s.countStanding = s := by
  cases s
  subst h
  rfl

/-- The release of RESET with nothing under way begins the mount and nothing else (R180). -/
theorem exec_resetRelease {s : State} (ho : s.opState = .held) (hb : s.banks = State.reset.banks)
    (hi : s.ingress = State.reset.ingress) :
    exec .resetRelease s = .next ({ s with resetAsserted := false } : State).beginMount := by
  have hm := beginMount_eq (s := { s with resetAsserted := false }) hb
  have hn : ({ s with resetAsserted := false } : State).beginMount.noErase := by
    rw [hm]
    intro e he
    cases he
  have hd : ({ s with resetAsserted := false } : State).beginMount.drained = true := by
    rw [hm]
    exact drained_of_ingress hi
  simp only [exec, execResetRelease]
  rw [if_pos ho, countStanding_none (s := { s with resetAsserted := false }) hi, settle_drained hd, examineErase_of_noErase hn]

theorem OpState.resettable_of_linkUp {o : OpState} (h : o.linkUp = true) : o.resettable = true := by
  cases o <;> first | rfl | cases h

/-- Settles O14. -/
theorem supplyResetAndGuardReleaseActAsTheRulesSay : Obligations.SupplyResetAndGuardReleaseActAsTheRulesSay := by
  unfold Obligations.SupplyResetAndGuardReleaseActAsTheRulesSay
  refine ⟨fun s => ⟨_, rfl, atReset_volatileReset _ _, rfl, rfl, rfl, rfl⟩, ?_, fun s hl => ?_, fun s ho hr => ?_, fun b s => rfl, ?_⟩
  · intro s _ hq hs
    obtain ⟨hp, hop, -⟩ := s.quietInside_iff.1 hq
    have hc : s.cutShort = s.store := cutShort_idle hp hs (by intro e he; rw [hop] at he; cases he) (by intro w hw; rw [hop] at hw; cases hw)
    cases hr : s.resetAsserted with
    | true =>
      refine ⟨s.volatileReset .held, ?_, hc, hr, rfl, ?_⟩
      · simp only [exec, execPowerOn, State.powerUp, hr, if_true]
      · rw [if_pos rfl]
        exact ⟨atReset_volatileReset _ _, rfl⟩
    | false =>
      refine ⟨(s.volatileReset .mounting).beginMount, ?_, hc, hr, rfl, ?_⟩
      · simp only [exec, execPowerOn, State.powerUp, hr, Bool.false_eq_true, if_false]
      · rw [if_neg Bool.false_ne_true]
        exact mountBegun_volatileReset s
  · refine ⟨_, ?_, atReset_volatileReset { s with resetAsserted := true } .held, rfl, rfl, rfl, rfl⟩
    simp only [exec, execResetAssertion, OpState.resettable_of_linkUp hl, if_true]
  · simp only [exec, execResetAssertion, ho, OpState.resettable, Bool.false_eq_true, if_false]
    cases s
    subst hr ho
    rfl
  · intro s ho hq hi
    obtain ⟨-, -, hb, -⟩ := s.quietInside_iff.1 hq
    refine ⟨_, exec_resetRelease ho hb hi, ?_⟩
    rw [beginMount_eq (s := { s with resetAsserted := false }) hb]
    exact ⟨rfl, rfl, rfl, rfl, rfl, rfl, by constructor <;> rfl⟩

/-! ## The store after work cut short -/

theorem cfgKey_inj {a b : SlotAddr} (ha : a.seg = 32 ∨ a.seg = 33) (hb : b.seg = 32 ∨ b.seg = 33) (hs : a.slot < 16) (ht : b.slot < 16)
    (h : cfgKey a = cfgKey b) : a = b := by
  simp only [cfgKey, Config.slotsPerCfgSegment, Config.segCA] at h
  cases a
  cases b
  simp only [SlotAddr.mk.injEq] at *
  omega

theorem Store.slot_of_slots {m n : Store} (h : m.slots = n.slots) (a : SlotAddr) : m.slot a = n.slot a :=
  congrArg (fun t => tableGet Slot.blank t (slotKey a)) h

theorem Store.cfgSlot_of_cfgSlots {m n : Store} (h : m.cfgSlots = n.cfgSlots) (a : SlotAddr) : m.cfgSlot a = n.cfgSlot a :=
  congrArg (fun t => tableGet CfgSlot.blank t (cfgKey a)) h

theorem Store.cfgSlot_putCfgSlot_same {m : Store} (a : SlotAddr) (v : CfgSlot) (h : m.wf = true) : (m.putCfgSlot a v).cfgSlot a = v :=
  tableGet_tablePut_same _ _ ((Store.wf_iff m).1 h).2.1

theorem Store.cfgSlot_putCfgSlot_other (m : Store) {a b : SlotAddr} (v : CfgSlot) (h : cfgKey b ≠ cfgKey a) :
    (m.putCfgSlot a v).cfgSlot b = m.cfgSlot b :=
  tableGet_tablePut_other _ _ h

theorem Store.header_putHeader {m : Store} (g x : Nat) (v : Header) (h : m.wf = true) :
    (m.putHeader g v).header x = if x = g then v else m.header x :=
  tableGet_tablePut g x v ((Store.wf_iff m).1 h).2.2

theorem Store.slots_torn_cfg (m : Store) {g : Nat} (hg : ¬ g < Config.routeSegments) : (m.torn g).slots = m.slots := by
  unfold Store.torn
  rw [if_neg hg]
  rfl

theorem Store.cfgSlots_torn_route (m : Store) {g : Nat} (hg : g < Config.routeSegments) : (m.torn g).cfgSlots = m.cfgSlots := by
  unfold Store.torn
  rw [if_pos hg]
  rfl

/-- A configuration segment set to one value shows it in every slot; the slots of the other stand. -/
theorem Store.cfgSlot_fillCfgSegment {m : Store} (g : CfgSeg) (v : CfgSlot) {a : SlotAddr} (h : m.wf = true)
    (ha : a.seg = 32 ∨ a.seg = 33) (hs : a.slot < 16) :
    (m.fillCfgSegment g.id v).cfgSlot a = if a.seg = g.id then v else m.cfgSlot a := by
  have hf := tableGet_tableFill (Config.slotsPerCfgSegment * (g.id - Config.segCA)) Config.slotsPerCfgSegment v
    (cfgKey a) ((Store.wf_iff m).1 h).2.1
  have he : (Config.slotsPerCfgSegment * (g.id - Config.segCA) ≤ cfgKey a ∧
      cfgKey a < Config.slotsPerCfgSegment * (g.id - Config.segCA) + Config.slotsPerCfgSegment) ↔ a.seg = g.id := by
    cases g <;> simp only [cfgKey, CfgSeg.id, Config.slotsPerCfgSegment, Config.segCA, Config.segCB] <;> omega
  refine hf.trans ?_
  simp only [he]
  rfl

theorem CfgSeg.not_route (g : CfgSeg) : ¬ g.id < Config.routeSegments := by
  cases g <;> decide

/-- A torn configuration segment has every slot indeterminate; the slots of the other stand. -/
theorem Store.cfgSlot_torn {m : Store} (g : CfgSeg) {a : SlotAddr} (h : m.wf = true) (ha : a.seg = 32 ∨ a.seg = 33) (hs : a.slot < 16) :
    (m.torn g.id).cfgSlot a = if a.seg = g.id then .indeterminate else m.cfgSlot a := by
  unfold Store.torn
  rw [if_neg g.not_route]
  exact Store.cfgSlot_fillCfgSegment g .indeterminate h ha hs

/-- What is indeterminate stays so when a segment is torn. -/
theorem Store.slot_torn_indeterminate {m : Store} (g : Nat) {a : SlotAddr} (h : m.wf = true) (ha : m.slot a = .indeterminate) :
    (m.torn g).slot a = .indeterminate := by
  by_cases hg : g < Config.routeSegments
  · have hf := tableGet_tableFill (Config.slotsPerSegment * g) Config.slotsPerSegment Slot.indeterminate (slotKey a)
      ((Store.wf_iff m).1 h).1
    unfold Store.torn
    rw [if_pos hg]
    refine hf.trans ?_
    split
    · rfl
    · exact ha
  · rw [Store.slot_of_slots (m.slots_torn_cfg hg), ha]

theorem Store.cfgSlot_torn_indeterminate {m : Store} (g : Nat) {a : SlotAddr} (h : m.wf = true) (ha : m.cfgSlot a = .indeterminate) :
    (m.torn g).cfgSlot a = .indeterminate := by
  by_cases hg : g < Config.routeSegments
  · rw [Store.cfgSlot_of_cfgSlots (m.cfgSlots_torn_route hg), ha]
  · have hf := tableGet_tableFill (Config.slotsPerCfgSegment * (g - Config.segCA)) Config.slotsPerCfgSegment CfgSlot.indeterminate
      (cfgKey a) ((Store.wf_iff m).1 h).2.1
    unfold Store.torn
    rw [if_neg hg]
    refine hf.trans ?_
    split
    · rfl
    · exact ha

theorem Store.header_torn_unstamped {m : Store} (g x : Nat) (h : m.wf = true) (hx : m.header x = .unstamped) :
    (m.torn g).header x = .unstamped := by
  rw [Store.header_torn g x h, hx]
  exact ite_self _

/-- A reset leaves the segment torn: a route erase that has begun, or the rotation erase of a configuration segment. -/
def State.tears (s : State) (g : Nat) : Prop :=
  (∃ e : EraseRec, (s.op = .erase e ∨ s.suspended = some e) ∧ e.step.touchesStore = true ∧ e.seg = g) ∨
    ∃ (w : ConfigWrite) (c : CfgSeg), s.op = .configWrite w ∧ (w.step = .erasing ∨ w.step = .stopping) ∧ w.target = some c ∧ c.id = g

/-- The store after the cut of the suspended erase alone. -/
def State.cutSuspended (s : State) : Store :=
  match s.suspended with
  | some e => s.cutProgram.cutErase e
  | none => s.cutProgram

theorem cutShort_noTear {s : State} (he : ∀ e, s.op ≠ .erase e)
    (hw : ∀ (w : ConfigWrite) (c : CfgSeg), s.op = .configWrite w → w.step = .erasing ∨ w.step = .stopping → w.target ≠ some c) :
    s.cutShort = s.cutSuspended := by
  unfold State.cutShort State.cutSuspended
  dsimp only
  split
  · rename_i e ho
    exact absurd ho (he e)
  · rename_i w ho
    split
    · rename_i c hs ht
      exact absurd ht (hw w c ho (.inl hs))
    · rename_i c hs ht
      exact absurd ht (hw w c ho (.inr hs))
    · rfl
  · rfl

theorem cutShort_erase {s : State} {e : EraseRec} (h : s.op = .erase e) : s.cutShort = s.cutSuspended.cutErase e := by
  unfold State.cutShort State.cutSuspended
  rw [h] <;> rfl

theorem cutShort_rotation {s : State} {w : ConfigWrite} {c : CfgSeg} (h : s.op = .configWrite w)
    (hs : w.step = .erasing ∨ w.step = .stopping) (ht : w.target = some c) : s.cutShort = s.cutSuspended.torn c.id := by
  unfold State.cutShort State.cutSuspended
  rw [h]
  dsimp only
  obtain hs | hs := hs
  all_goals rw [hs, ht] <;> rfl

theorem cutErase_keeps {P : Store → Prop} {m : Store} {e : EraseRec} (ht : e.step.touchesStore = true → P m → P (m.torn e.seg)) (hm : P m) :
    P (m.cutErase e) := by
  unfold Store.cutErase
  split
  · exact ht ‹_› hm
  · exact hm

theorem cutSuspended_keeps {P : Store → Prop} {s : State} (ht : ∀ (m : Store) (g : Nat), s.tears g → P m → P (m.torn g))
    (hp : P s.cutProgram) : P s.cutSuspended := by
  unfold State.cutSuspended
  split
  · rename_i e he
    exact cutErase_keeps (fun h => ht _ _ (.inl ⟨e, .inr he, h, rfl⟩)) hp
  · exact hp

/-- What the program cut short leaves, and the tearing of the segments that a reset tears keeps, holds of the store after the reset. -/
theorem cutShort_of_tears {P : Store → Prop} {s : State} (ht : ∀ (m : Store) (g : Nat), s.tears g → P m → P (m.torn g))
    (hp : P s.cutProgram) : P s.cutShort := by
  have h1 := cutSuspended_keeps ht hp
  by_cases he : ∃ e, s.op = .erase e
  · obtain ⟨e, he⟩ := he
    rw [cutShort_erase he]
    exact cutErase_keeps (fun h => ht _ _ (.inl ⟨e, .inl he, h, rfl⟩)) h1
  · by_cases hw : ∃ (w : ConfigWrite) (c : CfgSeg), s.op = .configWrite w ∧ (w.step = .erasing ∨ w.step = .stopping) ∧ w.target = some c
    · obtain ⟨w, c, ho, hs, hc⟩ := hw
      rw [cutShort_rotation ho hs hc]
      exact ht _ _ (.inr ⟨w, c, ho, hs, hc, rfl⟩) h1
    · rw [cutShort_noTear (fun e h => he ⟨e, h⟩) fun w c ho hs hc => hw ⟨w, c, ho, hs, hc⟩]
      exact h1

/-- A segment that a reset tears is torn after it, in every respect that no later tearing undoes. -/
theorem cutShort_of_torn {P : Store → Prop} {s : State} {g : Nat} (hg : s.tears g) (hc : s.store.wf = true)
    (h1 : ∀ m : Store, m.wf = true → P (m.torn g)) (h2 : ∀ (m : Store) (x : Nat), m.wf = true → P m → P (m.torn x)) : P s.cutShort := by
  have hws : s.cutSuspended.wf = true := cutSuspended_keeps (P := fun m => m.wf = true) (fun _ _ _ => Store.torn_wf _) (cutProgram_wf hc)
  obtain ⟨e, he | he, ht, rfl⟩ | ⟨w, c, ho, hs, htg, rfl⟩ := hg
  · rw [cutShort_erase he]
    unfold Store.cutErase
    rw [if_pos ht]
    exact h1 _ hws
  · have hs : s.cutSuspended = s.cutProgram.torn e.seg := by
      unfold State.cutSuspended
      rw [he]
      exact if_pos ht
    have hp : P s.cutSuspended := hs ▸ h1 _ (cutProgram_wf hc)
    by_cases hx : ∃ e', s.op = .erase e'
    · obtain ⟨e', he'⟩ := hx
      rw [cutShort_erase he']
      exact cutErase_keeps (fun _ => h2 _ _ hws) hp
    · by_cases hw : ∃ (w : ConfigWrite) (c : CfgSeg), s.op = .configWrite w ∧ (w.step = .erasing ∨ w.step = .stopping) ∧ w.target = some c
      · obtain ⟨w, c, ho, hs, htg⟩ := hw
        rw [cutShort_rotation ho hs htg]
        exact h2 _ _ hws hp
      · rw [cutShort_noTear (fun e h => hx ⟨e, h⟩) fun w c ho hs hc => hw ⟨w, c, ho, hs, hc⟩]
        exact hp
  · rw [cutShort_rotation ho hs htg]
    exact h1 _ hws

theorem EraseStep.touchesStore_iff (x : EraseStep) : x.touchesStore = true ↔ x ≠ .claimed ∧ x ≠ .stamping := by
  cases x <;> simp [EraseStep.touchesStore]

theorem cutProgram_some {s : State} {p : Program} (h : s.program = some p) : s.cutProgram = s.store.programmed p.job false := by
  unfold State.cutProgram
  rw [h]

/-- The tearing of every segment but that of a slot leaves the slot alone. -/
theorem Store.slot_torn_other {m : Store} {g : Nat} {a : SlotAddr} (h : m.wf = true) (ha : a.slot < 64) (hne : a.seg ≠ g) :
    (m.torn g).slot a = m.slot a := by
  by_cases hg : g < Config.routeSegments
  · rw [Store.slot_torn a h hg ha, if_neg hne]
  · exact Store.slot_of_slots (m.slots_torn_cfg hg) a

theorem cutProgram_slot {s : State} {a : SlotAddr} (ha : a.slot < 64)
    (hb : ∀ (p : Program) (x : SlotAddr) (w : SlotWrite), s.program = some p → p.job = .slot x w → x.slot < 64)
    (hne : ∀ (p : Program) (w : SlotWrite), s.program = some p → p.job ≠ .slot a w) : s.cutProgram.slot a = s.store.slot a := by
  unfold State.cutProgram
  split
  · rename_i p hp
    cases hj : p.job with
    | slot x w => exact Store.slot_programmed_other _ w false (hb p x w hp hj) ha fun e => hne p w hp (by rw [hj, e])
    | _ => rfl
  · rfl

theorem cutProgram_cfgSlot {s : State} {a : SlotAddr} (ha : a.seg = 32 ∨ a.seg = 33) (hs : a.slot < 16)
    (hb : ∀ (p : Program) (x : SlotAddr), s.program = some p → (∃ n v, p.job = .cfgRecord x n v) ∨ p.job = .cfgVoid x →
      (x.seg = 32 ∨ x.seg = 33) ∧ x.slot < 16)
    (hne : ∀ p : Program, s.program = some p → p.job ≠ .cfgVoid a ∧ ∀ n v, p.job ≠ .cfgRecord a n v) :
    s.cutProgram.cfgSlot a = s.store.cfgSlot a := by
  unfold State.cutProgram
  split
  · rename_i p hp
    obtain ⟨hv, hr⟩ := hne p hp
    cases hj : p.job with
    | cfgRecord x n v =>
      obtain ⟨hx, hxs⟩ := hb p x hp (.inl ⟨n, v, hj⟩)
      exact Store.cfgSlot_putCfgSlot_other _ _ fun h => hr n v (by rw [hj, cfgKey_inj ha hx hs hxs h])
    | cfgVoid x =>
      obtain ⟨hx, hxs⟩ := hb p x hp (.inr hj)
      exact Store.cfgSlot_putCfgSlot_other _ _ fun h => hv (by rw [hj, cfgKey_inj ha hx hs hxs h])
    | _ => rfl
  · rfl

theorem cutProgram_header {s : State} {g : Nat} (hc : s.store.wf = true)
    (hne : ∀ (p : Program) (n : Nat), s.program = some p → p.job ≠ .stamp g n) : s.cutProgram.header g = s.store.header g := by
  unfold State.cutProgram
  split
  · rename_i p hp
    cases hj : p.job with
    | stamp x n => exact (Store.header_putHeader x g _ hc).trans (if_neg fun e => hne p n hp (by rw [hj, e]))
    | _ => rfl
  · rfl

/-- Settles O15: what is indeterminate or unstamped stays so, and only the program's cell and the torn segments change. -/
theorem workCutShortLeavesCellsIndeterminate : Obligations.WorkCutShortLeavesCellsIndeterminate := by
  unfold Obligations.WorkCutShortLeavesCellsIndeterminate
  refine ⟨?_, ?_, ?_, ?_, ?_, ?_, fun s hp hs he hw => cutShort_idle hp hs he hw⟩
  · intro s p a w hc hp hj ha
    have h0 : s.cutProgram.slot a = .indeterminate := by
      rw [cutProgram_some hp, hj, Store.slot_programmed_same a w false hc]
      rfl
    exact (cutShort_of_tears (P := fun m => m.wf = true ∧ m.slot a = .indeterminate)
      (fun _ g _ hm => ⟨Store.torn_wf g hm.1, Store.slot_torn_indeterminate g hm.1 hm.2⟩) ⟨cutProgram_wf hc, h0⟩).2
  · intro s p g n hc hp hj
    have h0 : s.cutProgram.header g = .unstamped := by
      rw [cutProgram_some hp, hj]
      exact (Store.header_putHeader g g _ hc).trans (if_pos rfl)
    exact (cutShort_of_tears (P := fun m => m.wf = true ∧ m.header g = .unstamped)
      (fun _ x _ hm => ⟨Store.torn_wf x hm.1, Store.header_torn_unstamped x g hm.1 hm.2⟩) ⟨cutProgram_wf hc, h0⟩).2
  · intro s p a hc hp hj
    have h0 : s.cutProgram.cfgSlot a = .indeterminate := by
      rw [cutProgram_some hp]
      obtain ⟨n, v, hj⟩ | hj := hj
      all_goals rw [hj]; exact Store.cfgSlot_putCfgSlot_same a _ hc
    exact (cutShort_of_tears (P := fun m => m.wf = true ∧ m.cfgSlot a = .indeterminate)
      (fun _ g _ hm => ⟨Store.torn_wf g hm.1, Store.cfgSlot_torn_indeterminate g hm.1 hm.2⟩) ⟨cutProgram_wf hc, h0⟩).2
  · intro s e a hc he h1 h2 hg hseg ha
    have ht : s.tears e.seg := .inl ⟨e, he, e.step.touchesStore_iff.2 ⟨h1, h2⟩, rfl⟩
    exact cutShort_of_torn (P := fun m => m.slot a = .indeterminate ∧ m.header e.seg = .unstamped) ht hc
      (fun m hm => ⟨by rw [Store.slot_torn a hm hg ha, if_pos hseg], by rw [Store.header_torn _ _ hm, if_pos rfl]⟩)
      fun m x hm h => ⟨Store.slot_torn_indeterminate x hm h.1, Store.header_torn_unstamped x _ hm h.2⟩
  · intro s w g a hc ho hs hg hseg ha
    have ht : s.tears g.id := .inr ⟨w, g, ho, hs, hg, rfl⟩
    have hid : g.id = 32 ∨ g.id = 33 := by cases g <;> decide
    exact cutShort_of_torn (P := fun m => m.cfgSlot a = .indeterminate ∧ m.header g.id = .unstamped) ht hc
      (fun m hm => ⟨by rw [Store.cfgSlot_torn g hm (hseg ▸ hid) ha, if_pos hseg], by rw [Store.header_torn _ _ hm, if_pos rfl]⟩)
      fun m x hm h => ⟨Store.cfgSlot_torn_indeterminate x hm h.1, Store.header_torn_unstamped x _ hm h.2⟩
  · intro s hc hb hbc hbe
    have hx : ∀ g : Nat, s.tears g ↔
        ((∃ e : EraseRec, (s.op = .erase e ∨ s.suspended = some e) ∧ e.step ≠ .claimed ∧ e.step ≠ .stamping ∧ e.seg = g) ∨
          ∃ (w : ConfigWrite) (c : CfgSeg), s.op = .configWrite w ∧ (w.step = .erasing ∨ w.step = .stopping) ∧ w.target = some c ∧
            c.id = g) := by
      intro g
      simp only [State.tears, EraseStep.touchesStore_iff, and_assoc]
    refine ⟨fun a ha hn hp => ?_, fun a ha hs hn hp => ?_, fun g hn hp => ?_⟩
    · replace hn := mt (hx a.seg).1 hn
      exact (cutShort_of_tears (P := fun m => m.wf = true ∧ m.slot a = s.store.slot a)
        (fun _ g ht hm => ⟨Store.torn_wf g hm.1, (Store.slot_torn_other hm.1 ha fun e => hn (e ▸ ht)).trans hm.2⟩)
        ⟨cutProgram_wf hc, cutProgram_slot ha hb hp⟩).2
    · replace hn := mt (hx a.seg).1 hn
      refine (cutShort_of_tears (P := fun m => m.wf = true ∧ m.cfgSlot a = s.store.cfgSlot a)
        (fun m g ht hm => ⟨Store.torn_wf g hm.1, ?_⟩) ⟨cutProgram_wf hc, cutProgram_cfgSlot ha hs hbc hp⟩).2
      have hne : a.seg ≠ g := fun e => hn (e ▸ ht)
      obtain ⟨e, he, -, rfl⟩ | ⟨w, c, -, -, -, rfl⟩ := ht
      · exact (Store.cfgSlot_of_cfgSlots (m.cfgSlots_torn_route (hbe e he)) a).trans hm.2
      · rw [Store.cfgSlot_torn c hm.1 ha hs, if_neg hne, hm.2]
    · replace hn := mt (hx g).1 hn
      exact (cutShort_of_tears (P := fun m => m.wf = true ∧ m.header g = s.store.header g)
        (fun _ x ht hm => ⟨Store.torn_wf x hm.1, by rw [Store.header_torn x g hm.1, if_neg (fun e : g = x => hn (e ▸ ht)), hm.2]⟩)
        ⟨cutProgram_wf hc, cutProgram_header hc hp⟩).2

end Sys2Proof.Machine
end

section
/-! PROOF. The egress FIFOs with their transmitters, the codes of kinds and statuses, replies and the Fault List (R119, R135 to R137,
R140, R155, R156). -/

namespace Sys2Proof.Machine

open Sys2Proof

/-! ## Egress -/

theorem PerLine.set_set {α : Type} (t : PerLine α) (l : Line) (a b : α) : (t.set l a).set l b = t.set l b := by
  cases l <;> rfl

theorem PerLine.set_get_self {α : Type} (t : PerLine α) (l : Line) : t.set l (t.get l) = t := by
  cases l <;> rfl

theorem kickLine_traffic {s : State} {l : Line} {f : Frame} {fs : List Frame} (ht : s.lineTx.get l = none) (hr : s.replies.get l = [])
    (hf : s.traffic.get l = f :: fs) :
    s.kickLine l = { s with lineTx := s.lineTx.set l (some ⟨f, false⟩), traffic := s.traffic.set l fs } := by
  unfold State.kickLine
  rw [ht, hr, hf]

theorem kickLine_reply {s : State} {l : Line} {o : Outgoing} {os : List Outgoing} (ht : s.lineTx.get l = none)
    (hr : s.replies.get l = o :: os) :
    s.kickLine l = { s with lineTx := s.lineTx.set l (some o), replies := s.replies.set l os } := by
  unfold State.kickLine
  rw [ht, hr]

theorem kickTap_idle {s : State} {o : Outgoing} {os : List Outgoing} (ht : s.tapTx = none) (hd : s.delivery = o :: os) :
    s.kickTap = { s with tapTx := some o, delivery := os } := by
  unfold State.kickTap
  rw [ht, hd]

theorem kickLine_of_busy {s : State} {l : Line} (h : s.lineTx.get l ≠ none) : s.kickLine l = s := by
  obtain ⟨o, ho⟩ := Option.ne_none_iff_exists'.1 h
  exact kickLine_busy ho

theorem kickTap_of_busy {s : State} (h : s.tapTx ≠ none) : s.kickTap = s := by
  obtain ⟨o, ho⟩ := Option.ne_none_iff_exists'.1 h
  exact kickTap_busy ho

/-- An idle line transmitter has empty FIFOs between two commands. -/
theorem State.Sending.line_idle {s : State} (h : s.Sending) {l : Line} (ht : s.lineTx.get l = none) :
    s.replies.get l = [] ∧ s.traffic.get l = [] :=
  (h.line l).resolve_left fun hn => hn ht

theorem State.Sending.tap_idle {s : State} (h : s.Sending) (ht : s.tapTx = none) : s.delivery = [] :=
  h.tap.resolve_left fun hn => hn ht

/-- A frame appended to the traffic FIFO: an idle transmitter starts it at once (R136). -/
theorem kickLine_appendTraffic {s : State} (h : s.Sending) (l : Line) (f : Frame) :
    ({ s with traffic := s.traffic.set l (s.traffic.get l ++ [f]) } : State).kickLine l =
      if s.lineTx.get l = none then { s with lineTx := s.lineTx.set l (some ⟨f, false⟩) }
      else { s with traffic := s.traffic.set l (s.traffic.get l ++ [f]) } := by
  split
  · rename_i ht
    obtain ⟨hr, hf⟩ := h.line_idle ht
    have hself : (s.traffic.set l (s.traffic.get l ++ [f])).set l [] = s.traffic := by rw [PerLine.set_set, ← hf, PerLine.set_get_self]
    refine (kickLine_traffic (f := f) (fs := []) ?_ ?_ ?_).trans ?_
    · exact ht
    · exact hr
    · rw [PerLine.get_set_same, hf, List.nil_append]
    · dsimp only
      rw [hself]
  · exact kickLine_of_busy ‹_›

theorem appendReply_eq {s : State} (h : s.Sending) (l : Line) (o : Outgoing) :
    s.appendReply l o =
      if s.lineTx.get l = none then { s with lineTx := s.lineTx.set l (some o) }
      else { s with replies := s.replies.set l (s.replies.get l ++ [o]) } := by
  unfold State.appendReply
  split
  · rename_i ht
    obtain ⟨hr, -⟩ := h.line_idle ht
    have hself : (s.replies.set l (s.replies.get l ++ [o])).set l [] = s.replies := by rw [PerLine.set_set, ← hr, PerLine.set_get_self]
    refine (kickLine_reply (o := o) (os := []) ?_ ?_).trans ?_
    · exact ht
    · rw [PerLine.get_set_same, hr, List.nil_append]
    · dsimp only
      rw [hself]
  · exact kickLine_of_busy ‹_›

/-- A frame or reply appended to the delivery FIFO: an idle tap transmitter starts it at once (R137). -/
theorem kickTap_append {s : State} (h : s.Sending) (o : Outgoing) :
    ({ s with delivery := s.delivery ++ [o] } : State).kickTap =
      if s.tapTx = none then { s with tapTx := some o } else { s with delivery := s.delivery ++ [o] } := by
  split
  · rename_i ht
    have hd := h.tap_idle ht
    refine (kickTap_idle (o := o) (os := []) ?_ ?_).trans ?_
    · exact ht
    · rw [hd, List.nil_append]
    · dsimp only
      rw [← hd]
  · exact kickTap_of_busy ‹_›

theorem placeTraffic_eq {s : State} (h : s.Sending) (l : Line) (f : Frame) : s.placeTraffic l f =
    if s.lineTx.get l = none then { s with lineTx := s.lineTx.set l (some ⟨f, false⟩) }
    else if (s.traffic.get l).length < 16 then { s with traffic := s.traffic.set l (s.traffic.get l ++ [f]) }
    else s.count (linePort l) .egressFull := by
  unfold State.placeTraffic
  rw [kickLine_appendTraffic h]
  by_cases ht : s.lineTx.get l = none
  · have hf : (s.traffic.get l).length < Config.trafficCapacity := by rw [(h.line_idle ht).2]; decide
    rw [if_pos hf, if_pos ht, if_pos ht]
  · rw [if_neg ht, if_neg ht]
    rfl

theorem carryTraffic_eq {s : State} (h : s.Sending) (l : Line) (f : Frame) : s.carryTraffic l f =
    if s.lineTx.get l = none then { s with lineTx := s.lineTx.set l (some ⟨f, false⟩) }
    else if (s.traffic.get l).length < 16 then { s with traffic := s.traffic.set l (s.traffic.get l ++ [f]) }
    else s := by
  unfold State.carryTraffic
  rw [kickLine_appendTraffic h]
  by_cases ht : s.lineTx.get l = none
  · have hf : (s.traffic.get l).length < Config.trafficCapacity := by rw [(h.line_idle ht).2]; decide
    rw [if_pos hf, if_pos ht, if_pos ht]
  · rw [if_neg ht, if_neg ht]
    rfl

theorem placeDelivery_eq {s : State} (h : s.Sending) (f : Frame) : s.placeDelivery f =
    if s.tapTx = none then { s with tapTx := some ⟨f, false⟩ }
    else if s.delivery.length < 32 then { s with delivery := s.delivery ++ [⟨f, false⟩] }
    else s.count .tap .egressFull := by
  unfold State.placeDelivery
  rw [kickTap_append h]
  by_cases ht : s.tapTx = none
  · have hf : s.delivery.length < Config.deliveryCapacity := by rw [h.tap_idle ht]; decide
    rw [if_pos hf, if_pos ht, if_pos ht]
  · rw [if_neg ht, if_neg ht]
    rfl

theorem replyRoom_linePort (s : State) (l : Line) : s.replyRoom (linePort l) = decide ((s.replies.get l).length < 4) := by
  cases l <;> rfl

theorem placeReply_linePort (s : State) (l : Line) (o : Outgoing) : s.placeReply (linePort l) o =
    if (s.replies.get l).length < 4 then s.appendReply l o else s.count (linePort l) .replyLost := by
  unfold State.placeReply
  rw [replyRoom_linePort]
  simp only [decide_eq_true_eq]
  cases l <;> rfl

theorem placeReply_line {s : State} (h : s.Sending) (l : Line) (o : Outgoing) : s.placeReply (linePort l) o =
    if s.lineTx.get l = none then { s with lineTx := s.lineTx.set l (some o) }
    else if (s.replies.get l).length < 4 then { s with replies := s.replies.set l (s.replies.get l ++ [o]) }
    else s.count (linePort l) .replyLost := by
  rw [placeReply_linePort, appendReply_eq h]
  by_cases ht : s.lineTx.get l = none
  · have hr : (s.replies.get l).length < 4 := by rw [(h.line_idle ht).1]; decide
    rw [if_pos hr, if_pos ht, if_pos ht]
  · rw [if_neg ht, if_neg ht]

theorem placeReply_tap {s : State} (h : s.Sending) (o : Outgoing) : s.placeReply .tap o =
    if s.tapTx = none then { s with tapTx := some o }
    else if s.delivery.length < 32 then { s with delivery := s.delivery ++ [o] }
    else s.count .tap .replyLost := by
  unfold State.placeReply State.replyRoom
  simp only [decide_eq_true_eq]
  rw [kickTap_append h]
  by_cases ht : s.tapTx = none
  · have hf : s.delivery.length < Config.deliveryCapacity := by rw [h.tap_idle ht]; decide
    rw [if_pos hf, if_pos ht, if_pos ht]
  · rw [if_neg ht, if_neg ht]
    rfl

/-- Settles O19: an idle transmitter has empty FIFOs, so that what is appended starts at once. -/
theorem egressFifosTakeFramesUpToTheirCapacity : Obligations.EgressFifosTakeFramesUpToTheirCapacity := by
  unfold Obligations.EgressFifosTakeFramesUpToTheirCapacity
  intro s h
  rw [State.sendersBusy_iff] at h
  exact ⟨placeTraffic_eq h, carryTraffic_eq h, placeDelivery_eq h, placeReply_line h, placeReply_tap h⟩

/-! ## Codes -/

theorem code_of_kindOf {b : Byte} {k : ReqKind} (h : kindOf b = some k) : k.code = b := by
  unfold kindOf at h
  split at h
  all_goals first
    | (rename_i hb
       injection h with h
       subst h
       exact BitVec.eq_of_toNat_eq hb.symm)
    | cases h

theorem kindOf_eq_some {b : Byte} {k : ReqKind} : kindOf b = some k ↔ k.code = b := by
  constructor
  · exact code_of_kindOf
  · rintro rfl
    exact kindOf_code k

/-- A code with its list of values, in which each name stands once. -/
theorem code_iff_mem {α : Type} {code : α → Byte} {l : List (α × Byte)} (h1 : ∀ p ∈ l, code p.1 = p.2) (h2 : ∀ a, (a, code a) ∈ l)
    (a : α) (b : Byte) : code a = b ↔ (a, b) ∈ l := by
  constructor
  · rintro rfl
    exact h2 a
  · exact fun h => h1 _ h

theorem Status.transient_iff (st : Status) :
    st.transient = true ↔ st = .queueFull ∨ st = .notRunning ∨ st = .bankBusy ∨ st = .inProgress := by
  cases st <;> decide

theorem replyStored_eq (s : State) (o : Origin) (k : ReqKind) (st : Status) (rs : List Byte) : s.replyStored o k st rs =
    if st = .queueFull ∨ st = .notRunning ∨ st = .bankBusy ∨ st = .inProgress then s.emitReply o k.code st.code rs false
    else (s.remember o k.code st.code rs).emitReply o k.code st.code rs false := by
  unfold State.replyStored
  simp only [Status.transient_iff]

theorem addFault_full {s : State} (r : FaultRecord) {x : FaultRecord} {xs : List FaultRecord} (h : s.faults = x :: xs) (hl : xs.length = 7) :
    s.addFault r = { s with faults := xs ++ [r], overflow := if s.overflow < 255 then s.overflow + 1 else s.overflow } := by
  unfold State.addFault
  rw [h, if_neg (by rw [List.length_cons, hl]; decide)]
  rfl

/-- Settles O20. -/
theorem repliesAndFaultRecordsAreKept : Obligations.RepliesAndFaultRecordsAreKept := by
  unfold Obligations.RepliesAndFaultRecordsAreKept
  refine ⟨?_, ?_, fun s o kind status rs awaited => rfl, fun s o k st rs => ⟨rfl, ?_⟩, fun s r => ⟨addFault_room r, fun x xs => addFault_full r⟩⟩
  · refine (fun key => ⟨key, fun b k => kindOf_eq_some.trans (key k b)⟩) ?_
    exact code_iff_mem (by decide) (by intro k; cases k <;> decide)
  · exact code_iff_mem (by decide) (by intro st; cases st <;> decide)
  · exact replyStored_eq s o k st rs

end Sys2Proof.Machine
end

section
/-! PROOF. Frames: the check word, the format conditions, and every frame that the unit builds (R134, R196 to R198). -/

namespace Sys2Proof.Machine

open Sys2Proof

/-! ## The check word -/

theorem checkBit_eq (r : BitVec 16) (x : Bool) :
    checkBit r x = if x = r.getLsbD 15 then r <<< 1 else (r <<< 1) ^^^ 0x1021#16 := by
  unfold checkBit
  rw [BitVec.msb_eq_getLsbD_last]
  cases x <;> cases r.getLsbD (16 - 1) <;> rfl

theorem checkWord_append (bytes : List Byte) (b : Byte) : checkWord (bytes ++ [b]) = checkByte (checkWord bytes) b := by
  unfold checkWord
  rw [List.foldl_append]
  rfl

/-! ## Fields of two bytes -/

theorem toNat_byte (n : Nat) : (BitVec.ofNat 8 n).toNat = n % 256 := BitVec.toNat_ofNat n 8

theorem value2_byte2 {n : Nat} (h : n < 65536) : value2 (BitVec.ofNat 8 (n / 256)) (BitVec.ofNat 8 n) = n := by
  unfold value2
  rw [toNat_byte, toNat_byte]
  omega

/-- Two bytes are the field of a value exactly when they spell it. -/
theorem eq_byte2_iff {hi lo : Byte} {n : Nat} (h : n < 65536) : [hi, lo] = byte2 n ↔ value2 hi lo = n := by
  constructor
  · intro e
    have e1 : hi = BitVec.ofNat 8 (n / 256) := List.head_eq_of_cons_eq e
    have e2 : lo = BitVec.ofNat 8 n := List.head_eq_of_cons_eq (List.tail_eq_of_cons_eq e)
    rw [e1, e2, value2_byte2 h]
  · rintro rfl
    exact (byte2_value2 hi lo).symm

/-! ## The tests of a frame -/

/-- A frame whose last two bytes stand apart passes its check when they spell the word over the bytes before. -/
theorem checkGood_append (body : List Byte) (hi lo : Byte) :
    checkGood (body ++ [hi, lo]) = true ↔ 3 ≤ body.length ∧ value2 hi lo = (checkWord body).toNat := by
  have hl : (body ++ [hi, lo]).length - 2 = body.length := by simp
  unfold checkGood
  rw [hl, List.drop_left, List.take_left, Bool.and_eq_true, decide_eq_true_iff, decide_eq_true_iff,
    eq_byte2_iff (checkWord body).isLt]
  simp

theorem checkGood_iff (f : Frame) : checkGood f = true ↔
    5 ≤ f.length ∧ ∃ (body : List Byte) (hi lo : Byte), f = body ++ [hi, lo] ∧ hi.toNat * 256 + lo.toNat = (checkWord body).toNat := by
  constructor
  · intro h
    have hl : 5 ≤ f.length := by
      unfold checkGood at h
      rw [Bool.and_eq_true, decide_eq_true_iff] at h
      exact h.1
    refine ⟨hl, ?_⟩
    have hd : (f.drop (f.length - 2)).length = 2 := by rw [List.length_drop]; omega
    obtain ⟨hi, lo, he⟩ := exists_pair_of_length hd
    have hf : f = f.take (f.length - 2) ++ [hi, lo] := by rw [← he, List.take_append_drop]
    rw [hf, checkGood_append] at h
    exact ⟨_, hi, lo, hf, h.2⟩
  · rintro ⟨hl, body, hi, lo, rfl, hv⟩
    rw [checkGood_append]
    rw [List.length_append] at hl
    exact ⟨by simpa using hl, hv⟩

theorem checkGood_withCheck {body : List Byte} (h : 3 ≤ body.length) : checkGood (withCheck body) = true :=
  (checkGood_append body _ _).2 ⟨h, value2_byte2 (checkWord body).isLt⟩

theorem formatGood_iff (hi lo n : Byte) (rest : List Byte) : formatGood (hi :: lo :: n :: rest) = true ↔
    hi.toNat < 16 ∧ n.toNat ≤ 240 ∧ rest.length = n.toNat + 2 ∧ ¬ (hi = 0 ∧ lo = 0 ∧ n.toNat < 6) := by
  have h1 := hi.isLt
  have h2 := lo.isLt
  have hz : (hi = 0 ∧ lo = 0) ↔ value2 hi lo = 0 := by
    rw [← BitVec.toNat_inj, ← BitVec.toNat_inj]
    unfold value2
    simp only [BitVec.ofNat_eq_ofNat, BitVec.toNat_ofNat, Nat.zero_mod]
    omega
  rw [← and_assoc (a := hi = 0), hz]
  unfold formatGood frameChannelField frameLengthField value2 Config.maxChannel Config.maxPayload Config.managementBytes
  simp only [Bool.and_eq_true, Bool.or_eq_true, decide_eq_true_eq, List.length_cons]
  omega

theorem framePayload_cons {hi lo n : Byte} {rest : List Byte} (h : rest.length = n.toNat + 2) :
    framePayload (hi :: lo :: n :: rest) = rest.take n.toNat := by
  unfold framePayload
  simp only [List.length_cons, List.drop_succ_cons, List.drop_zero, h, Nat.reduceSubDiff]

/-! ## The frames the unit builds -/

theorem buildFrame_cons (ch : Nat) (payload : List Byte) :
    buildFrame ch payload = BitVec.ofNat 8 (ch / 256) :: BitVec.ofNat 8 ch :: BitVec.ofNat 8 payload.length ::
      (payload ++ byte2 (checkWord (byte2 ch ++ byte1 payload.length ++ payload)).toNat) := rfl

/-- A frame built with a channel and a payload in their ranges passes its tests and reads back as it was built. -/
theorem buildFrame_reads {ch : Nat} {payload : List Byte} (hc : ch ≤ 4095) (hp : payload.length ≤ 240) (hm : ch = 0 → 6 ≤ payload.length) :
    checkGood (buildFrame ch payload) = true ∧ formatGood (buildFrame ch payload) = true ∧
      frameChannelField (buildFrame ch payload) = ch ∧ framePayload (buildFrame ch payload) = payload ∧
      (buildFrame ch payload).length = payload.length + 5 := by
  have hn : (BitVec.ofNat 8 payload.length).toNat = payload.length := by rw [toNat_byte]; omega
  have hl : (payload ++ byte2 (checkWord (byte2 ch ++ byte1 payload.length ++ payload)).toNat).length =
      (BitVec.ofNat 8 payload.length).toNat + 2 := by rw [hn, List.length_append]; rfl
  have hv := value2_byte2 (n := ch) (by omega)
  refine ⟨?_, ?_, ?_, ?_, ?_⟩
  · exact checkGood_withCheck (by simp only [List.length_append, byte2, byte1, List.length_cons, List.length_nil]; omega)
  · rw [buildFrame_cons, formatGood_iff, hl, hn]
    refine ⟨by rw [toNat_byte]; omega, hp, rfl, fun ⟨h1, h2, h3⟩ => ?_⟩
    rw [h1, h2] at hv
    have := hm hv.symm
    omega
  · rw [buildFrame_cons]
    exact hv
  · rw [buildFrame_cons, framePayload_cons hl, hn, List.take_left]
  · rw [buildFrame_cons]
    simp only [List.length_cons, hl, hn]

theorem byte2_append (n : Nat) (l : List Byte) : byte2 n ++ l = BitVec.ofNat 8 (n / 256) :: BitVec.ofNat 8 n :: l := rfl

/-- The copy of a well-formed frame with another channel is the frame built with that channel and its payload (R134). -/
theorem rewriteChannel_eq {f : Frame} (ch : Nat) (hl : 5 ≤ f.length) (hf : formatGood f = true) :
    rewriteChannel ch f = buildFrame ch (framePayload f) ∧ (framePayload f).length ≤ 240 := by
  match f, hl, hf with
  | hi :: lo :: n :: rest, _, hf =>
    obtain ⟨-, hn, hr, -⟩ := (formatGood_iff hi lo n rest).1 hf
    have hp : (rest.take n.toNat).length = n.toNat := by rw [List.length_take, hr]; omega
    rw [framePayload_cons hr, hp]
    refine ⟨?_, hn⟩
    unfold rewriteChannel buildFrame
    rw [hp, byte1_toNat]
    have hlen : (hi :: lo :: n :: rest).length - 4 = n.toNat + 1 := by simp only [List.length_cons, hr]; omega
    rw [hlen]
    simp only [List.drop_succ_cons, List.drop_zero, List.take_succ_cons, List.append_assoc, List.singleton_append]

/-- Settles O16. -/
theorem framesCarryTheirCheckWord : Obligations.FramesCarryTheirCheckWord := by
  unfold Obligations.FramesCarryTheirCheckWord
  refine ⟨⟨rfl, fun bytes b => ?_⟩, fun bytes => rfl, checkGood_iff, fun hi lo n rest => ⟨rfl, ?_, fun hf => ?_⟩,
    fun ch payload => buildFrame_reads, fun station tag kind status results hs hr => ?_, fun _ _ _ _ _ _ _ => rfl, fun ch f h1 h2 hl hf => ?_⟩
  · rw [checkWord_append]
    unfold checkByte
    simp only [List.foldl_cons, List.foldl_nil, checkBit_eq]
  · rw [formatGood_iff]
    simp only [List.length_cons, Nat.add_right_cancel_iff]
  · obtain ⟨-, -, hr, -⟩ := (formatGood_iff hi lo n rest).1 hf
    exact framePayload_cons hr
  · have hlen : (byte2 station ++ [0x80#8, tag, kind, status] ++ results).length ≤ 240 ∧
        6 ≤ (byte2 station ++ [0x80#8, tag, kind, status] ++ results).length := by
      simp only [List.length_append, byte2, List.length_cons, List.length_nil]
      omega
    obtain ⟨hc, hf, hch, hp, -⟩ := buildFrame_reads (ch := 0) (by omega) hlen.1 fun _ => hlen.2
    refine ⟨hc, hf, hch, hp, ?_⟩
    unfold replyFrame
    rw [hp]
    have hm : managementFields (byte2 station ++ [0x80#8, tag, kind, status] ++ results) =
        ⟨value2 (BitVec.ofNat 8 (station / 256)) (BitVec.ofNat 8 station), true, tag, kind, results⟩ := rfl
    rw [hm, value2_byte2 (by omega)]
  · obtain ⟨he, hp⟩ := rewriteChannel_eq ch hl hf
    obtain ⟨hc, hf', hch, hpay, -⟩ := buildFrame_reads (ch := ch) h2 hp (by omega)
    simp only [he]
    exact ⟨hc, hf', hch, hpay⟩

end Sys2Proof.Machine
end

section
/-! PROOF. The bytes of replies (R199, Tables 11-6 to 11-9, 11-13). -/

namespace Sys2Proof.Machine

open Sys2Proof

theorem byte4_eq (n : Nat) : byte4 n =
    [BitVec.ofNat 8 (n / 16777216), BitVec.ofNat 8 (n / 65536), BitVec.ofNat 8 (n / 256), BitVec.ofNat 8 n] := by
  have h : n / 65536 / 256 = n / 16777216 := Nat.div_div_eq_div_mul n 65536 256
  simp only [byte4, byte2, h, List.cons_append, List.nil_append]

/-- The port and tag of a request, 0 where there is none. -/
theorem originBytes (o : Option Origin) :
    byteOrZero (o.map (fun o => portCode o.port)) ++ byteOrZero (o.map (fun o => o.tag.toNat)) =
      match o with
      | some ⟨.east, tag⟩ => [1, tag]
      | some ⟨.west, tag⟩ => [2, tag]
      | some ⟨.tap, tag⟩ => [3, tag]
      | none => [0, 0] := by
  match o with
  | none => rfl
  | some ⟨.east, tag⟩ => exact congrArg (List.cons 1) (byte1_toNat tag)
  | some ⟨.west, tag⟩ => exact congrArg (List.cons 2) (byte1_toNat tag)
  | some ⟨.tap, tag⟩ => exact congrArg (List.cons 3) (byte1_toNat tag)

/-- The fault kinds of an item, with zeros up to four. -/
theorem take_four_append_zeros (l : List Byte) (h : l.length ≤ 4) : (l ++ List.replicate 4 0).take 4 = l ++ List.replicate (4 - l.length) 0 := by
  rw [List.take_append, List.take_of_length_le h, List.take_replicate]
  congr 2
  omega

theorem settleItem_eq (e : Entry) (f : List FaultKind) (h : f.length ≤ 4) : settleItem e f =
    byte2 e.channel ++ [if FaultKind.promoteFault ∈ f then 2 else 1] ++ byte1 f.length ++
      f.map (fun k => BitVec.ofNat 8 (faultKindCode k)) ++ List.replicate (4 - f.length) 0 := by
  unfold settleItem
  rw [take_four_append_zeros _ (by rwa [List.length_map]), List.length_map]
  have h1 : byte1 (if FaultKind.promoteFault ∈ f then 2 else 1) = [if FaultKind.promoteFault ∈ f then 2 else 1] := by
    split <;> rfl
  rw [h1]
  simp only [List.append_assoc]

theorem settleItems_nil (es : List Entry) : settleItems es [] = [] := by
  cases es <;> rfl

theorem byte1_acceptCode (a : PortSet) : byte1 (acceptCode a) =
    byte1 ((if a.east = true then 1 else 0) + (if a.west = true then 2 else 0) + (if a.tap = true then 4 else 0)) := by
  obtain ⟨e, w, t⟩ := a
  cases e <;> cases w <;> cases t <;> rfl

theorem byte1_actionCode (a : Action) : byte1 (actionCode a) =
    match a with
    | .pass => [1]
    | .deliver => [2]
    | .passAndDeliver => [3]
    | .discard => [4] := by
  cases a <;> rfl

theorem sideBytes (l : Option Line) : byteOrZero (l.map lineCode) =
    match l with
    | some .east => [1]
    | some .west => [2]
    | none => [0] := by
  match l with
  | some .east => rfl
  | some .west => rfl
  | none => rfl

theorem causeBytes (c : Option FailureCause) : byteOrFF (c.map causeCode) =
    match c with
    | some .eraseTimeout => [0x06]
    | some .stampFault => [0x07]
    | some .write => [0x0C]
    | none => [0xFF] := by
  match c with
  | some .eraseTimeout => rfl
  | some .stampFault => rfl
  | some .write => rfl
  | none => rfl

theorem segStateBytes (c : Option SegState) : byteOrFF (c.map segStateCode) =
    match c with
    | some .clean => [1]
    | some .opened => [2]
    | some .filled => [3]
    | some .faulted => [4]
    | some .erasing => [5]
    | some .torn => [6]
    | none => [0xFF] := by
  match c with
  | some x => cases x <;> rfl
  | none => rfl

theorem tallyBytes (t : Option Tallies) :
    pairOrZero (t.map Tallies.moved) ++ pairOrZero (t.map Tallies.skipped) ++ byteOrFF (t.map Tallies.sealed) ++
      pairOrZero (t.map Tallies.settleFaulted) =
    match t with
    | some t => byte2 t.moved ++ byte2 t.skipped ++ byte1 t.sealed ++ byte2 t.settleFaulted
    | none => [0, 0, 0, 0, 0xFF, 0, 0] := by
  cases t <;> rfl

theorem byte1_toNat_bool (b : Bool) : byte1 b.toNat = [if b = true then 1 else 0] := by
  cases b <;> rfl

theorem recordImage_entry (st : RecState) (n : Nat) (e : Entry) : recordImage ⟨st, n, .entry e⟩ =
    byte1 (recStateCode st) ++ byte1 (contentKindCode (.entry e)) ++ byte4 n ++ entryTail e := rfl

/-- Settles O17. -/
theorem replyLayoutsFollowTheTables : Obligations.ReplyLayoutsFollowTheTables := by
  unfold Obligations.ReplyLayoutsFollowTheTables
  intro b1 b2 b4 causeByte fault
  have h4 : byte4 = b4 := funext byte4_eq
  have hf : ∀ k : FaultKind, BitVec.ofNat 8 (faultKindCode k) = fault k := by
    intro k
    cases k <;> rfl
  have hq : ∀ o : Option Nat, quadOrZero o = b4 (o.getD 0) := fun o => by rw [← h4]; rfl
  have hc : ∀ o : Option FailureCause, byteOrFF (o.map causeCode) = causeByte o := causeBytes
  refine ⟨fun n => ⟨rfl, rfl, byte4_eq n⟩, fun a => rfl, rfl, fun r => ?_, fun r => ?_, fun r => ?_, fun r => ?_, settleItems_nil,
    fun fs => by cases fs <;> rfl, fun e es f fs hl => ?_, rfl, rfl, rfl, rfl, fun st n => ?_⟩
  · unfold faultBytes
    rw [List.append_assoc _ (byteOrZero _) (byteOrZero _), originBytes, hq, ← hf]
    rfl
  · unfold eraseResultBytes
    rw [hc, hq]
    cases r.activeUs <;> rfl
  · unfold reclaimResultBytes
    rw [hc, hq, hq, segStateBytes, List.append_assoc _ (pairOrZero _) (pairOrZero _), List.append_assoc _ (_ ++ _) (byteOrFF _),
      List.append_assoc _ (_ ++ _ ++ _) (pairOrZero _), tallyBytes]
    cases r.tallies <;> rfl
  · unfold setConfigResultBytes
    rw [hc, hq, hq, byte1_toNat_bool]
    rfl
  · have hm : f.map (fun k => BitVec.ofNat 8 (faultKindCode k)) = f.map fault := List.map_congr_left fun k _ => hf k
    have hs := settleItem_eq e f hl
    rw [hm] at hs
    rw [settleItems, hs]
    rfl
  · refine ⟨fun count => ?_, fun ch => ?_, fun ch f => ?_⟩
    · cases st <;> simp only [readResultBytes, recordImage, h4] <;> rfl
    · cases st <;> simp only [readResultBytes, recordImage, h4] <;> rfl
    · have ht : entryTail ⟨ch, .route f⟩ = byte2 ch ++ byte1 (acceptCode f.accept) ++ byte1 (actionCode f.action) ++
          pairOrZero f.outChannel ++ byteOrZero (f.tapSide.map lineCode) := rfl
      rw [readResultBytes, recordImage_entry, ht, byte1_acceptCode, byte1_actionCode, sideBytes, h4]
      simp only [List.append_assoc]
      cases st <;> rfl

end Sys2Proof.Machine
end

section
/-! PROOF. Entry images and configuration images (R35, R36, R167, R199, Tables 11-8 and 11-10). -/

namespace Sys2Proof.Machine

open Sys2Proof

/-! ## The fields of an entry image -/

theorem toNat_eq_iff {b : Byte} {n : Nat} (h : n < 256) : b.toNat = n ↔ b = BitVec.ofNat 8 n := by
  rw [← BitVec.toNat_inj, BitVec.toNat_ofNat, Nat.mod_eq_of_lt h]

theorem acceptOf_eq_some {b : Byte} {a : PortSet} :
    acceptOf b = some a ↔ b ≠ 0 ∧ b.toNat ≤ 7 ∧ a = ⟨b.getLsbD 0, b.getLsbD 1, b.getLsbD 2⟩ := by
  have hz : b.toNat = 0 ↔ b = 0 := toNat_eq_iff (n := 0) (by decide)
  unfold acceptOf
  simp only [hz]
  split
  · rename_i h
    simp only [reduceCtorEq, false_iff, not_and]
    intro hn hl
    exact absurd h (not_or.2 ⟨hn, by omega⟩)
  · rename_i h
    obtain ⟨hn, hl⟩ := not_or.1 h
    simp only [Option.some.injEq, eq_comm (b := a), ne_eq, show ¬ b = 0 from hn, not_false_eq_true, true_and]
    exact ⟨fun e => ⟨by omega, e⟩, fun e => e.2⟩

theorem actionOf_eq_some {b : Byte} {a : Action} : actionOf b = some a ↔
    (b = 1 ∧ a = .pass) ∨ (b = 2 ∧ a = .deliver) ∨ (b = 3 ∧ a = .passAndDeliver) ∨ (b = 4 ∧ a = .discard) := by
  have key : ∀ n : Nat, n < 256 → (b = BitVec.ofNat 8 n ↔ b.toNat = n) := fun n h => (toNat_eq_iff h).symm
  rw [show (1 : Byte) = BitVec.ofNat 8 1 from rfl, show (2 : Byte) = BitVec.ofNat 8 2 from rfl,
    show (3 : Byte) = BitVec.ofNat 8 3 from rfl, show (4 : Byte) = BitVec.ofNat 8 4 from rfl, key 1 (by decide), key 2 (by decide),
    key 3 (by decide), key 4 (by decide)]
  unfold actionOf
  split <;> cases a <;> simp_all

theorem outChannelOf_eq_some {n : Nat} {x : Option Nat} :
    outChannelOf n = some x ↔ n ≤ 4095 ∧ x = if n = 0 then none else some n := by
  unfold outChannelOf Config.maxChannel
  by_cases h : n = 0
  · simp [h, eq_comm (b := x)]
  · by_cases hl : n ≤ 4095
    · simp [h, hl, eq_comm (b := x)]
    · simp [h, hl]

theorem tapSideOf_eq_some {needed : Bool} {b : Byte} {x : Option Line} : tapSideOf needed b = some x ↔
    (needed = true ∧ ((b = 1 ∧ x = some .east) ∨ (b = 2 ∧ x = some .west))) ∨ (¬ needed = true ∧ b = 0 ∧ x = none) := by
  have key : ∀ n : Nat, n < 256 → (b = BitVec.ofNat 8 n ↔ b.toNat = n) := fun n h => (toNat_eq_iff h).symm
  rw [show (0 : Byte) = BitVec.ofNat 8 0 from rfl, show (1 : Byte) = BitVec.ofNat 8 1 from rfl,
    show (2 : Byte) = BitVec.ofNat 8 2 from rfl, key 0 (by decide), key 1 (by decide), key 2 (by decide)]
  unfold tapSideOf
  split <;> simp_all [eq_comm (b := x)]

theorem needsTapSide_iff (a : PortSet) (x : Action) :
    needsTapSide a x = true ↔ a.tap = true ∧ (x = .pass ∨ x = .passAndDeliver) := by
  cases x <;> simp [needsTapSide]

theorem routeFieldsOf_eq_some {accept action outHi outLo side : Byte} {f : RouteFields} :
    routeFieldsOf accept action outHi outLo side = some f ↔
      acceptOf accept = some f.accept ∧ actionOf action = some f.action ∧ outChannelOf (value2 outHi outLo) = some f.outChannel ∧
        tapSideOf (needsTapSide f.accept f.action) side = some f.tapSide := by
  unfold routeFieldsOf
  cases ha : acceptOf accept with
  | none => simp
  | some a =>
    cases hx : actionOf action with
    | none => simp
    | some x =>
      cases ho : outChannelOf (value2 outHi outLo) with
      | none => simp
      | some o =>
        obtain ⟨fa, fx, fo, ft⟩ := f
        cases ht : tapSideOf (needsTapSide a x) side with
        | none =>
          simp only [Option.bind_eq_bind, Option.bind_some, ht, Option.bind_none, reduceCtorEq, Option.some.injEq, false_iff, not_and]
          rintro rfl rfl - h
          exact nomatch ht.symm.trans h
        | some t =>
          simp only [Option.bind_eq_bind, Option.bind_some, ht, Option.pure_def, Option.some.injEq, RouteFields.mk.injEq]
          constructor
          · rintro ⟨rfl, rfl, rfl, rfl⟩
            exact ⟨rfl, rfl, rfl, ht⟩
          · rintro ⟨rfl, rfl, rfl, h⟩
            exact ⟨rfl, rfl, rfl, Option.some.inj (ht.symm.trans h)⟩

/-! ## The image of an entry -/

theorem entryOf_length {bytes : List Byte} (h : bytes.length ≠ 8) : entryOf bytes = none := by
  unfold entryOf
  split
  · exact absurd rfl h
  · rfl

theorem entryOf_route {kind chHi chLo accept action outHi outLo side : Byte} {ch : Nat} {f : RouteFields} :
    entryOf [kind, chHi, chLo, accept, action, outHi, outLo, side] = some ⟨ch, .route f⟩ ↔
      kind = 1 ∧ ch = value2 chHi chLo ∧ 1 ≤ value2 chHi chLo ∧ value2 chHi chLo ≤ 4095 ∧
        routeFieldsOf accept action outHi outLo side = some f := by
  rw [show (1 : Byte) = BitVec.ofNat 8 1 from rfl, ← toNat_eq_iff (by decide)]
  unfold entryOf Config.maxChannel
  dsimp only
  split
  · rename_i h
    simp only [reduceCtorEq, false_iff, not_and]
    intro _ _ h1 h2
    omega
  · rename_i h
    have hr : 1 ≤ value2 chHi chLo ∧ value2 chHi chLo ≤ 4095 := by omega
    split
    · rename_i hk
      simp only [hk, hr, true_and, Option.map_eq_some_iff, Entry.mk.injEq, EntryKind.route.injEq]
      exact ⟨fun ⟨a, h1, h2, h3⟩ => ⟨h2.symm, h3 ▸ h1⟩, fun ⟨h1, h2⟩ => ⟨f, h2, h1.symm, rfl⟩⟩
    · rename_i hk
      simp only [hk]
      split
      · simp
      · simp
    · rename_i hk _
      simp only [reduceCtorEq, false_iff, not_and]
      exact fun h => absurd h hk

theorem entryOf_withdraw {kind chHi chLo accept action outHi outLo side : Byte} {ch : Nat} :
    entryOf [kind, chHi, chLo, accept, action, outHi, outLo, side] = some ⟨ch, .withdraw⟩ ↔
      kind = 2 ∧ ch = value2 chHi chLo ∧ 1 ≤ value2 chHi chLo ∧ value2 chHi chLo ≤ 4095 ∧
        accept = 0 ∧ action = 0 ∧ outHi = 0 ∧ outLo = 0 ∧ side = 0 := by
  rw [show (2 : Byte) = BitVec.ofNat 8 2 from rfl, ← toNat_eq_iff (by decide)]
  unfold entryOf Config.maxChannel
  dsimp only
  split
  · rename_i h
    simp only [reduceCtorEq, false_iff, not_and]
    intro _ _ h1 h2
    omega
  · rename_i h
    have hr : 1 ≤ value2 chHi chLo ∧ value2 chHi chLo ≤ 4095 := by omega
    split
    · rename_i hk
      simp [hk]
    · rename_i hk
      simp only [hk, hr, true_and]
      split
      · rename_i hz
        simp only [Option.some.injEq, Entry.mk.injEq, and_true, hz, eq_comm (a := ch)]
      · rename_i hz
        simp only [reduceCtorEq, false_iff, not_and']
        exact fun h => absurd h hz
    · rename_i hk _
      simp only [reduceCtorEq, false_iff, not_and]
      intro h
      simp_all

/-! ## The images of a STAGE -/

theorem imagesOf_parts {n : Nat} {bytes : List Byte} (h : bytes.length = 8 * n) :
    (imagesOf n bytes).length = n ∧ (imagesOf n bytes).flatten = bytes ∧ ∀ x ∈ imagesOf n bytes, x.length = 8 := by
  induction n generalizing bytes with
  | zero => simp [imagesOf, List.eq_nil_of_length_eq_zero h]
  | succ n ih =>
    obtain ⟨h1, h2, h3⟩ := ih (bytes := bytes.drop 8) (by rw [List.length_drop]; omega)
    refine ⟨by rw [imagesOf, List.length_cons, h1], by rw [imagesOf, List.flatten_cons, h2, List.take_append_drop], ?_⟩
    intro x hx
    rw [imagesOf, List.mem_cons] at hx
    obtain rfl | hx := hx
    · rw [List.length_take]
      omega
    · exact h3 x hx

theorem entriesOf_none {pos : Nat} {img : List Byte} (rest : List (List Byte)) (h : entryOf img = none) :
    entriesOf pos (img :: rest) = .error pos := by
  rw [entriesOf, h]

theorem entriesOf_some {pos : Nat} {img : List Byte} {e : Entry} (rest : List (List Byte)) (h : entryOf img = some e) :
    entriesOf pos (img :: rest) = (entriesOf (pos + 1) rest).map (List.cons e) := by
  rw [entriesOf, h]
  dsimp only
  cases entriesOf (pos + 1) rest <;> rfl

theorem entriesOf_ok_iff {pos : Nat} {images : List (List Byte)} {es : List Entry} :
    entriesOf pos images = .ok es ↔ images.map entryOf = es.map some := by
  induction images generalizing pos es with
  | nil => cases es <;> simp [entriesOf]
  | cons img rest ih =>
    cases h : entryOf img with
    | none =>
      rw [entriesOf_none rest h]
      cases es <;> simp [h]
    | some e =>
      rw [entriesOf_some rest h]
      cases es with
      | nil => cases entriesOf (pos + 1) rest <;> simp [Except.map]
      | cons x xs =>
        rw [List.map_cons, List.map_cons, h, List.cons.injEq, Option.some.injEq, ← ih (pos := pos + 1)]
        cases entriesOf (pos + 1) rest <;> simp [Except.map]

/-- The first element of a list that fails a test, with what stands before it. -/
def FirstAt {α : Type} (bad : List α → α → Prop) (l : List α) (n : Nat) : Prop :=
  ∃ (before after : List α) (x : α), l = before ++ x :: after ∧ n = before.length ∧ bad before x

theorem firstAt_cons {α : Type} {bad : List α → α → Prop} {x : α} {l : List α} {n : Nat} :
    FirstAt bad (x :: l) n ↔ (n = 0 ∧ bad [] x) ∨ ∃ k, n = k + 1 ∧ FirstAt (fun b => bad (x :: b)) l k := by
  constructor
  · rintro ⟨before, after, y, he, hn, hb⟩
    cases before with
    | nil =>
      obtain ⟨rfl, rfl⟩ := List.cons.inj he
      exact .inl ⟨hn, hb⟩
    | cons z zs =>
      obtain ⟨rfl, rfl⟩ := List.cons.inj he
      exact .inr ⟨zs.length, hn, zs, after, y, rfl, rfl, hb⟩
  · rintro (⟨rfl, hb⟩ | ⟨k, rfl, before, after, y, rfl, rfl, hb⟩)
    · exact ⟨[], l, x, rfl, rfl, hb⟩
    · exact ⟨x :: before, after, y, rfl, rfl, hb⟩

theorem not_firstAt_nil {α : Type} {bad : List α → α → Prop} {n : Nat} : ¬ FirstAt bad [] n := by
  rintro ⟨before, after, x, he, -⟩
  exact absurd he (by simp)

theorem firstAt_congr {α : Type} {bad worse : List α → α → Prop} (h : ∀ b x, bad b x ↔ worse b x) {l : List α} {n : Nat} :
    FirstAt bad l n ↔ FirstAt worse l n := by
  unfold FirstAt
  simp only [h]

/-- The place of the first failing element, counted from 1. -/
theorem firstAt_from_one {α : Type} {bad : List α → α → Prop} {l : List α} {n : Nat} : (∃ k, n = k + 1 ∧ FirstAt bad l k) ↔
    ∃ (before after : List α) (x : α), l = before ++ x :: after ∧ n = before.length + 1 ∧ bad before x := by
  constructor
  · rintro ⟨_, rfl, before, after, x, hl, rfl, hb⟩
    exact ⟨before, after, x, hl, rfl, hb⟩
  · rintro ⟨before, after, x, hl, rfl, hb⟩
    exact ⟨_, rfl, before, after, x, hl, rfl, hb⟩

theorem entriesOf_error_iff {pos n : Nat} {images : List (List Byte)} : entriesOf pos images = .error n ↔
    ∃ k, n = k + pos ∧ FirstAt (fun b x => entryOf x = none ∧ ∀ y ∈ b, entryOf y ≠ none) images k := by
  induction images generalizing pos n with
  | nil => simp [entriesOf, not_firstAt_nil]
  | cons img rest ih =>
    simp only [firstAt_cons, List.mem_cons, forall_eq_or_imp]
    cases h : entryOf img with
    | none =>
      rw [entriesOf_none rest h]
      simp [FirstAt, eq_comm]
    | some e =>
      rw [entriesOf_some rest h]
      have he : (entriesOf (pos + 1) rest).map (List.cons e) = .error n ↔ entriesOf (pos + 1) rest = .error n := by
        cases entriesOf (pos + 1) rest <;> simp [Except.map]
      rw [he, ih]
      simp only [reduceCtorEq, false_and, and_false, ne_eq, not_false_eq_true, true_and, false_or]
      constructor
      · rintro ⟨k, rfl, hk⟩
        exact ⟨k + 1, by omega, k, rfl, hk⟩
      · rintro ⟨_, rfl, k, rfl, hk⟩
        exact ⟨k, by omega, hk⟩

theorem firstDuplicate_eq_some_iff {pos n : Nat} {seen : List Nat} {es : List Entry} : firstDuplicate pos seen es = some n ↔
    ∃ k, n = k + pos ∧ FirstAt (fun b e => (e.channel ∈ seen ∨ e.channel ∈ b.map Entry.channel) ∧ (b.map Entry.channel).Nodup ∧
      ∀ x ∈ b, x.channel ∉ seen) es k := by
  induction es generalizing pos n seen with
  | nil => simp [firstDuplicate, not_firstAt_nil]
  | cons e es ih =>
    rw [firstDuplicate]
    simp only [firstAt_cons, List.mem_cons, forall_eq_or_imp, List.map_cons, List.nodup_cons, List.map_nil, List.not_mem_nil]
    by_cases h : e.channel ∈ seen
    · simp [h, FirstAt, eq_comm]
    · rw [if_neg h, ih]
      simp only [h, not_false_eq_true, true_and, false_or, and_false, or_false, false_and]
      constructor
      · rintro ⟨k, rfl, hk⟩
        refine ⟨k + 1, by omega, k, rfl, (firstAt_congr fun b x => ?_).1 hk⟩
        simp only [List.mem_cons, not_or, forall_and, List.mem_map, not_exists, not_and]
        grind
      · rintro ⟨_, rfl, k, rfl, hk⟩
        refine ⟨k, by omega, (firstAt_congr fun b x => ?_).1 hk⟩
        simp only [List.mem_cons, not_or, forall_and, List.mem_map, not_exists, not_and]
        grind

/-! ## Configuration images -/

theorem configImageOf_length {bytes : List Byte} (h : bytes.length ≠ 9) : configImageOf bytes = none := by
  unfold configImageOf
  split
  · exact absurd rfl h
  · rfl

theorem noRouteOf_eq (n : Nat) :
    noRouteOf n = if n ≠ 1 ∧ n ≠ 2 then none else some (if n = 1 then .discard else .deliver) := by
  unfold noRouteOf
  split <;> simp_all

theorem modeOf_eq (n : Nat) : modeOf n = if n ≠ 1 ∧ n ≠ 2 then none else some (if n = 1 then .run else .bypass) := by
  unfold modeOf
  split <;> simp_all

theorem configOfImage_eq (i : ConfigImage) : configOfImage i =
    (if 65535 ≤ i.station then .error 1
     else if i.holdLimit = 0 ∨ 255 < i.holdLimit then .error 2
     else if i.noRoute ≠ 1 ∧ i.noRoute ≠ 2 then .error 3
     else if i.guardLow = 0 ∨ 4095 < i.guardLow ∨ 4095 < i.guardHigh then .error 4
     else if i.startMode ≠ 1 ∧ i.startMode ≠ 2 then .error 5
     else
      .ok ⟨i.station, i.holdLimit, if i.noRoute = 1 then .discard else .deliver, i.guardLow, i.guardHigh,
        if i.startMode = 1 then .run else .bypass⟩) := by
  unfold configOfImage Config.broadcastStation Config.maxChannel
  rw [noRouteOf_eq, modeOf_eq]
  by_cases h1 : i.noRoute ≠ 1 ∧ i.noRoute ≠ 2
  · rw [if_pos h1, if_pos h1]
  · rw [if_neg h1, if_neg h1]
    by_cases h2 : i.startMode ≠ 1 ∧ i.startMode ≠ 2
    · rw [if_pos h2, if_pos h2]
    · rw [if_neg h2, if_neg h2]

/-- Settles O18. -/
theorem imagesAreReadAsTheTablesSay : Obligations.ImagesAreReadAsTheTablesSay := by
  unfold Obligations.ImagesAreReadAsTheTablesSay
  refine ⟨fun _ => entryOf_length, fun kind chHi chLo accept action outHi outLo side => ⟨fun ch f => ?_, fun ch => entryOf_withdraw⟩,
    fun _ _ => imagesOf_parts, fun images => ⟨fun es => entriesOf_ok_iff, fun n => ?_⟩,
    fun seen es => ⟨firstDuplicate_eq_none_iff 1 seen es, fun n => ?_⟩, fun _ => configImageOf_length,
    fun _ _ _ _ _ _ _ _ _ => rfl, configOfImage_eq⟩
  · rw [entryOf_route, routeFieldsOf_eq_some, acceptOf_eq_some, actionOf_eq_some, outChannelOf_eq_some, tapSideOf_eq_some, needsTapSide_iff]
    have hs : f.accept = ⟨accept.getLsbD 0, accept.getLsbD 1, accept.getLsbD 2⟩ →
        ((action = 1 ∧ f.action = .pass) ∨ (action = 2 ∧ f.action = .deliver) ∨ (action = 3 ∧ f.action = .passAndDeliver) ∨
          (action = 4 ∧ f.action = .discard)) →
        ((f.accept.tap = true ∧ (f.action = .pass ∨ f.action = .passAndDeliver)) ↔
          accept.getLsbD 2 = true ∧ (action = 1 ∨ action = 3)) := by
      intro ha hx
      rw [ha]
      obtain ⟨rfl, hx⟩ | ⟨rfl, hx⟩ | ⟨rfl, hx⟩ | ⟨rfl, hx⟩ := hx
      all_goals simp [hx]
    constructor
    · rintro ⟨hk, hc, h1, h2, ⟨ha, hl, hacc⟩, hact, ⟨ho, hout⟩, ht⟩
      exact ⟨hk, hc, h1, h2, ha, hl, ho, hacc, hact, hout, by rwa [hs hacc hact] at ht⟩
    · rintro ⟨hk, hc, h1, h2, ha, hl, ho, hacc, hact, hout, ht⟩
      exact ⟨hk, hc, h1, h2, ⟨ha, hl, hacc⟩, hact, ⟨ho, hout⟩, by rwa [hs hacc hact]⟩
  · exact entriesOf_error_iff.trans firstAt_from_one
  · exact firstDuplicate_eq_some_iff.trans firstAt_from_one

end Sys2Proof.Machine
end

section
/-! PROOF. The end of an event: heads taken and the erase examined (R72, R73, R75, R125 to R129, R138 to R140). -/

namespace Sys2Proof.Machine

open Sys2Proof

/-! ## The next lookup stage to take a head -/

theorem State.takes_iff (s : State) (p : Port) : s.takes p = true ↔ s.stages.get p = .idle ∧ s.ingress.get p ≠ [] := by
  simp [State.takes]

theorem nextTaker_east (s : State) : s.nextTaker = some .east ↔ s.takes .east = true := by
  unfold State.nextTaker
  cases h1 : s.takes .east <;> cases h2 : s.takes .west <;> cases h3 : s.takes .tap <;> simp [List.find?, h1, h2, h3]

theorem nextTaker_west (s : State) : s.nextTaker = some .west ↔ s.takes .west = true ∧ ¬ s.takes .east = true := by
  unfold State.nextTaker
  cases h1 : s.takes .east <;> cases h2 : s.takes .west <;> cases h3 : s.takes .tap <;> simp [List.find?, h1, h2, h3]

theorem nextTaker_tap (s : State) :
    s.nextTaker = some .tap ↔ s.takes .tap = true ∧ ¬ s.takes .east = true ∧ ¬ s.takes .west = true := by
  unfold State.nextTaker
  cases h1 : s.takes .east <;> cases h2 : s.takes .west <;> cases h3 : s.takes .tap <;> simp [List.find?, h1, h2, h3]

theorem drained_iff_takes (s : State) :
    s.drained = true ↔ ¬ s.takes .east = true ∧ ¬ s.takes .west = true ∧ ¬ s.takes .tap = true := by
  simp only [Bool.not_eq_true]
  rw [State.drained_iff]
  exact ⟨fun h => ⟨h _, h _, h _⟩, fun ⟨h1, h2, h3⟩ p => by cases p <;> assumption⟩

/-! ## A head handled under the operating state -/

theorem bypassFrame_eq (s : State) (p : Port) (f : Frame) : s.bypassFrame p f =
    if frameChannelField f = 0 ∧ checkGood f = true ∧ formatGood f = true then s.handOff p f .bypassed
    else
      match oppositeLine p with
      | some l => (s.placeTraffic l f).count p .bypassed
      | none => s.count p .tapIdle := by
  unfold State.bypassFrame State.repeatFrame
  split
  · rfl
  · cases p <;> rfl

theorem noRoute_eq (s : State) (p : Port) (f : Frame) : s.noRoute p f =
    if s.config.values.noRoute = .deliver ∧ p ≠ .tap then (s.placeDelivery f).count p .delivered else s.count p .noRoute := by
  unfold State.noRoute
  cases h : s.config.values.noRoute <;> cases p <;> simp [oppositeLine]

theorem judgeFrame_eq (s : State) (p : Port) (f : Frame) : s.judgeFrame p f =
    if checkGood f = false then s.count p .check
    else if formatGood f = false then s.count p .format
    else if frameChannelField f = 0 then s.handOff p f .mgmtPassed
    else
      match s.position (frameChannelField f) with
      | none =>
        if s.config.values.noRoute = .deliver ∧ p ≠ .tap then (s.placeDelivery f).count p .delivered else s.count p .noRoute
      | some a => s.requestRead p ⟨f, true, 0, a, false⟩ a := by
  unfold State.judgeFrame State.lookUp
  simp only [Bool.not_eq_true', noRoute_eq] <;> cases s.position (frameChannelField f) <;> rfl

theorem carryAcross_eq (s : State) (p : Port) (f : Frame) : s.carryAcross p f =
    match oppositeLine p with
    | some l => s.carryTraffic l f
    | none => s := by
  unfold State.carryAcross
  cases p <;> rfl

/-- A head taken from an ingress FIFO is handled as an arrival at an idle stage is. -/
theorem takeHead_cons {s : State} {p : Port} {f : Frame} {rest : List Frame} {o : OpState} (h : s.ingress.get p = f :: rest)
    (ho : s.opState = o) : s.takeHead p =
    match (generalizing := false) o with
    | .running => ({ s with ingress := s.ingress.set p rest } : State).judgeFrame p f
    | .held => ({ s with ingress := s.ingress.set p rest } : State).carryAcross p f
    | .noPower => { s with ingress := s.ingress.set p rest }
    | _ => ({ s with ingress := s.ingress.set p rest } : State).bypassFrame p f := by
  unfold State.takeHead
  rw [h]
  subst ho
  dsimp only
  cases s.opState <;> rfl

/-! ## The examination of the erase -/

theorem suspensionReason_iff (s : State) (g : Nat) :
    s.suspensionReason g = true ↔ (s.bank (bankOf g)).queue ≠ [] ∨ s.urgentHead = true := by
  simp [State.suspensionReason]

theorem suspensionReason_eq_false (s : State) (g : Nat) :
    s.suspensionReason g = false ↔ (s.bank (bankOf g)).queue = [] ∧ s.urgentHead = false := by
  simp [State.suspensionReason]

theorem resumeAllowed_iff (s : State) (e : EraseRec) : s.resumeAllowed e = true ↔
    (s.bank (bankOf e.seg)).queue = [] ∧ (s.bank (bankOf e.seg)).inFlight = none ∧ s.urgentHead = false ∧ e.held = [] := by
  simp [State.resumeAllowed, and_assoc]

/-- A reason that appears is waited for to the end of the run interval, or the suspend is requested at once (R73). -/
theorem reasonAppears_eq {s : State} {e : EraseRec} (h : s.op = .erase e) (hs : s.suspensionReason e.seg = true) :
    s.reasonAppears e =
      ({ s with op := .erase { e with step := if e.runTimer then .waiting else .suspending } } : State).setBank (bankOf e.seg)
        { s.bank (bankOf e.seg) with state := .suspendWait } := by
  unfold State.reasonAppears
  rw [mapErase_of_erase h]
  dsimp only
  split
  · rfl
  · unfold State.lookAgain
    rw [mapErase_of_erase (e := { e with step := .waiting }) (by rfl)]
    have hr : (({ s with op := .erase { e with step := .waiting } } : State).setBank (bankOf e.seg)
        { s.bank (bankOf e.seg) with state := .suspendWait }).suspensionReason e.seg = true := by
      refine (suspensionReason_congr (s := s) ?_ ?_).trans hs
      · rw [State.bank_setBank_same]
      · rfl
    dsimp only
    rw [if_pos hr]
    generalize bankOf e.seg = b
    cases b <;> rfl

/-- Where a reason has just been taken up no resume condition is met. -/
theorem examineErase_running {s : State} {e : EraseRec} (h : s.op = .erase e) (hr : e.step = .running) :
    s.examineErase = if s.suspensionReason e.seg = true then s.reasonAppears e else s := by
  unfold State.examineErase
  split
  · rename_i hs
    rw [examineReasons_eq h hr hs]
    refine examineResume_noop fun e' he' hx => ?_
    rw [reasonAppears_eq h hs] at he'
    cases he'
    simp only at hx
    split at hx <;> cases hx
  · rename_i hs
    have hn : s.reasonFresh = false := reasonFresh_eq_false fun e' he' _ => by
      rw [h] at he'
      cases he'
      exact Bool.eq_false_iff.2 hs
    rw [examineReasons_of_not_fresh hn]
    refine examineResume_noop fun e' he' hx => ?_
    rw [h] at he'
    cases he'
    exact nomatch hr.symm.trans hx

theorem examineReasons_running {s : State} {e : EraseRec} (h : s.op = .erase e) (hr : e.step = .running) :
    s.examineReasons = s.examineErase := by
  rw [examineErase_running h hr]
  unfold State.examineReasons
  rw [h]
  simp only [hr, true_and]

theorem examineReasons_not_running {s : State} (h : ∀ e, s.op = .erase e → e.step ≠ .running) : s.examineReasons = s :=
  examineReasons_of_not_fresh (reasonFresh_eq_false fun e he hr => absurd hr (h e he))

theorem examineErase_not_running {s : State} {e : EraseRec} (h : s.op = .erase e) (hr : e.step ≠ .running) :
    s.examineErase = if e.step = .suspended ∧ s.resumeAllowed e = true then s.makeClaim (bankOf e.seg) (.resume e.seg) else s := by
  unfold State.examineErase
  rw [examineReasons_not_running fun e' he' => by rw [h] at he'; cases he'; exact hr]
  unfold State.examineResume
  rw [h]

/-- Settles O21: one head is taken after the reasons are examined, and with none left the erase is examined by its step. -/
theorem endOfAnEventTakesHeadsAndExaminesTheErase : Obligations.EndOfAnEventTakesHeadsAndExaminesTheErase := by
  unfold Obligations.EndOfAnEventTakesHeadsAndExaminesTheErase
  refine ⟨fun s => ?_, fun s p f rest hp hf => ?_, ⟨fun s e => examineReasons_running, fun s => examineReasons_not_running⟩,
    fun s => settle_drained, fun s => examineErase_of_noErase, fun s e he => ⟨fun hr => ⟨fun hn => ?_, fun hs => ?_⟩, fun hr => ?_, fun h1 h2 => ?_⟩⟩
  · simp only [← State.takes_iff]
    exact ⟨nextTaker_east s, nextTaker_west s, nextTaker_tap s, drained_iff_takes s⟩
  · have hk := sameOutside_examineReasons s
    rw [settle_takes hp, takeHead_cons (rest := rest) (by rw [hk.ingress, hf]) hk.opState, hk.ingress]
    simp only [judgeFrame_eq, carryAcross_eq, bypassFrame_eq] <;> cases s.opState <;> rfl
  · rw [examineErase_running he hr, (suspensionReason_eq_false s e.seg).2 hn]
    exact if_neg Bool.false_ne_true
  · have hx := (suspensionReason_iff s e.seg).2 hs
    rw [examineErase_running he hr, if_pos hx, reasonAppears_eq he hx]
  · rw [examineErase_not_running he (by rw [hr]; decide)]
    simp only [hr, true_and, resumeAllowed_iff]
  · rw [examineErase_not_running he h1]
    exact if_neg fun h => h2 h.1

end Sys2Proof.Machine
end

section
/-! PROOF. The screens of dispatch (R145, R149 to R152). -/

namespace Sys2Proof.Machine

open Sys2Proof

theorem OpState.linkUp_iff (x : OpState) : x.linkUp = true ↔ x = .mounting ∨ x = .running ∨ x = .bypass := by
  cases x <;> decide

/-! ## Requests in progress -/

theorem CurrentOp.origin?_eq_some {x : CurrentOp} {o : Origin} : x.origin? = some o ↔
    (∃ b, x = .commit b ∧ b.origin = o) ∨ (∃ e, x = .erase e ∧ e.origin = o) ∨ (∃ r, x = .reclaim r ∧ r.origin = o) ∨
      (∃ w, x = .configWrite w ∧ w.origin = o) ∨ ∃ r, x = .restart r ∧ r.origin = o := by
  cases x <;> simp [CurrentOp.origin?]

theorem BankUnit.readSlotOrigin?_eq_some {u : BankUnit} {o : Origin} : u.readSlotOrigin? = some o ↔
    ∃ (x : ReadTarget) (counted : Bool), u.inFlight = some ⟨x, .readSlot o, counted⟩ := by
  unfold BankUnit.readSlotOrigin?
  split
  · rename_i x o' c h
    simp [h]
  · rename_i h
    simp only [reduceCtorEq, false_iff, not_exists]
    exact fun x c hx => h x o c hx

theorem bank_exists {s : State} {P : BankUnit → Prop} :
    (∃ b : Bank, P (s.bank b)) ↔ P s.banks.b0 ∨ P s.banks.b1 ∨ P s.banks.b2 ∨ P s.banks.b3 := by
  constructor
  · rintro ⟨b, hb⟩
    cases b
    · exact .inl hb
    · exact .inr (.inl hb)
    · exact .inr (.inr (.inl hb))
    · exact .inr (.inr (.inr hb))
  · rintro (h | h | h | h)
    · exact ⟨.b0, h⟩
    · exact ⟨.b1, h⟩
    · exact ⟨.b2, h⟩
    · exact ⟨.b3, h⟩

theorem inProgress_iff (s : State) (o : Origin) : s.inProgress o = true ↔
    (∃ q ∈ s.queue, q.origin = o) ∨
      ((∃ b, s.op = .commit b ∧ b.origin = o) ∨ (∃ e, s.op = .erase e ∧ e.origin = o) ∨ (∃ r, s.op = .reclaim r ∧ r.origin = o) ∨
        (∃ w, s.op = .configWrite w ∧ w.origin = o) ∨ ∃ r, s.op = .restart r ∧ r.origin = o) ∨
      (∃ e : EraseRec, s.suspended = some e ∧ e.origin = o) ∨
      ∃ (b : Bank) (x : ReadTarget) (counted : Bool), (s.bank b).inFlight = some ⟨x, .readSlot o, counted⟩ := by
  rw [← CurrentOp.origin?_eq_some, bank_exists (P := fun u => ∃ x counted, u.inFlight = some ⟨x, .readSlot o, counted⟩)]
  simp only [← BankUnit.readSlotOrigin?_eq_some]
  unfold State.inProgress
  simp only [Bool.or_eq_true, List.any_eq_true, decide_eq_true_eq, Option.map_eq_some_iff, or_assoc]

/-! ## Kinds and lengths -/

theorem clearForm_iff (ps : List Byte) : clearForm ps = true ↔ ∃ port : Byte, ps = [port, 0x01] := by
  unfold clearForm
  split
  · rename_i port flag
    simp
  · rename_i h
    simp only [Bool.false_eq_true, false_iff, not_exists]
    exact fun port e => h port 1 e

theorem stateChanging_iff (k : ReqKind) (ps : List Byte) : stateChanging k ps = true ↔
    k ∈ [ReqKind.clearFaults, .stage, .unstage, .abandon, .setMode, .commit, .erase, .reclaim, .setConfig, .restart] ∨
      (k = .readCounters ∧ ∃ port : Byte, ps = [port, 0x01]) := by
  rw [← clearForm_iff]
  cases k <;> simp [stateChanging]

theorem storedReply_eq_some {s : State} {o : Origin} {m : StoredReply} :
    s.storedReply o = some m ↔ s.memory.get o.port = some m ∧ m.tag = o.tag := by
  unfold State.storedReply
  cases h : s.memory.get o.port with
  | none => simp
  | some x =>
    dsimp only
    split
    · rename_i ht
      simp only [Option.some.injEq, iff_self_and]
      rintro rfl
      exact ht
    · rename_i ht
      simp only [reduceCtorEq, Option.some.injEq, false_iff, not_and]
      rintro rfl
      exact ht

theorem lengthGood_stage (ps : List Byte) : lengthGood .stage ps = true ↔
    ∃ (n : Byte) (images : List Byte), ps = n :: images ∧ ps.length = 1 + 8 * n.toNat := by
  cases ps with
  | nil => simp [lengthGood]
  | cons n rest =>
    simp only [lengthGood, decide_eq_true_eq, List.cons.injEq, List.length_cons]
    constructor
    · intro h
      exact ⟨n, rest, ⟨rfl, rfl⟩, by omega⟩
    · rintro ⟨_, _, ⟨rfl, rfl⟩, h⟩
      omega

theorem lengthGood_iff (k : ReqKind) (ps : List Byte) : lengthGood k ps = true ↔
    (k ∈ [ReqKind.status, .describe, .readFaults, .readConfig, .clearFaults, .unstage, .commit, .restart] ∧ ps.length = 0) ∨
      (k ∈ [ReqKind.readSlot, .readCounters] ∧ ps.length = 2) ∨ (k = .readIndex ∧ ps.length = 3) ∨
      (k = .stage ∧ ∃ (n : Byte) (images : List Byte), ps = n :: images ∧ ps.length = 1 + 8 * n.toNat) ∨
      (k ∈ [ReqKind.abandon, .setMode, .erase, .reclaim] ∧ ps.length = 1) ∨ (k = .setConfig ∧ ps.length = 9) := by
  rw [← lengthGood_stage]
  cases k <;> simp [lengthGood]

/-! ## The reception of a request -/

/-- The command of a request is its reception. -/
theorem exec_of_requestOf {c : Instr} {k : ReqKind} {o : Origin} {ps : List Byte} (h : requestOf c = some (k, o, ps)) (s : State) :
    exec c s = .next (s.receive k o.port o.tag ps) := by
  cases c
  all_goals first
    | (injection h with h
       injection h with h1 h
       injection h with h2 h3
       subst h1 h2 h3
       rfl)
    | cases h

theorem receive_linkDown {s : State} (k : ReqKind) (p : Port) (tag : Byte) (ps : List Byte) (hl : s.opState.linkUp = false) :
    s.receive k p tag ps = s := by
  unfold State.receive
  rw [hl]
  exact if_neg Bool.false_ne_true

theorem refusedMounting_eq_false {s : State} {k : ReqKind} (hm : s.opState = .mounting → k = .status) :
    s.refusedMounting k.code = false := by
  unfold State.refusedMounting
  rw [kindOf_code]
  by_cases h : s.opState = .mounting
  · simp [hm h]
  · simp [h]

/-- A request whose port and tag are in progress is not carried out (R150). -/
theorem receive_inProgress {s : State} {k : ReqKind} {p : Port} {tag : Byte} {ps : List Byte} (hl : s.opState.linkUp = true)
    (hm : s.opState = .mounting → k = .status) (hi : s.inProgress ⟨p, tag⟩ = true) :
    s.receive k p tag ps = (s.replyRead ⟨p, tag⟩ k.code .inProgress []).settle := by
  unfold State.receive State.dispatch
  simp only [hl, if_true, refusedMounting_eq_false hm, Bool.false_eq_true, if_false, hi]

theorem screenKnown_stored {s : State} {k : ReqKind} {o : Origin} {ps : List Byte} {m : StoredReply} (hk : stateChanging k ps = true)
    (hm : s.storedReply o = some m) : s.screenKnown k o ps = s.emitReply o m.kind m.status m.results false := by
  simp only [State.screenKnown, hk, hm, if_true]

theorem screenKnown_badLength {s : State} {k : ReqKind} {o : Origin} {ps : List Byte} (hk : stateChanging k ps = true)
    (hm : s.storedReply o = none) (hl : lengthGood k ps = false) : s.screenKnown k o ps = s.replyStored o k .badRequest [] := by
  simp only [State.screenKnown, hk, hm, hl, if_true, Bool.false_eq_true, if_false]

theorem screenKnown_badRead {s : State} {k : ReqKind} {o : Origin} {ps : List Byte} (hk : stateChanging k ps = false)
    (hl : lengthGood k ps = false) : s.screenKnown k o ps = s.replyRead o k.code .badRequest [] := by
  simp only [State.screenKnown, hk, hl, Bool.false_eq_true, if_false]

theorem screenKnown_read {s : State} {k : ReqKind} {o : Origin} {ps : List Byte} (hk : stateChanging k ps = false)
    (hl : lengthGood k ps = true) : s.screenKnown k o ps = s.perform k o ps := by
  simp only [State.screenKnown, hk, hl, Bool.false_eq_true, if_false, if_true]

/-- Settles O22. -/
theorem dispatchScreensAnswerWithoutCarryingOut : Obligations.DispatchScreensAnswerWithoutCarryingOut := by
  unfold Obligations.DispatchScreensAnswerWithoutCarryingOut
  refine ⟨OpState.linkUp_iff, inProgress_iff, stateChanging_iff, fun _ _ _ => storedReply_eq_some, lengthGood_iff,
    fun c k o ps s hc hd => ⟨fun hl => ?_, fun hm hk => ?_, fun hl hm => ⟨fun hi => ?_, fun hi hk => ⟨fun m hs => ?_, fun hs hg => ?_⟩,
      fun hi hk hg => ?_⟩⟩⟩
  all_goals rw [exec_of_requestOf hc]
  · rw [receive_linkDown k _ _ ps hl]
  · rw [receive_mounting hm hk, settle_replyRead hd]
  · rw [receive_inProgress hl hm hi, settle_replyRead hd]
  · rw [receive_known hl hm hi, screenKnown_stored hk hs, settle_emitReply hd]
  · rw [receive_known hl hm hi, screenKnown_badLength hk hs hg, settle_replyStored hd]
  · rw [receive_known hl hm hi, screenKnown_badRead hk hg, settle_replyRead hd]

end Sys2Proof.Machine
end

section
/-! PROOF. STATUS, DESCRIBE, READ CONFIG and READ COUNTERS (R143, R159 to R161, R165). -/

namespace Sys2Proof.Machine

open Sys2Proof

/-! ## The bytes of STATUS -/

theorem byte1_opStateCode {x : OpState} (h : x.linkUp = true) : byte1 (opStateCode x) =
    match (generalizing := false) x with
    | .mounting => [1]
    | .running => [2]
    | _ => [3] := by
  cases x <;> first | rfl | cases h

theorem operationBytes (x : CurrentOp) : byte1 (operationCode x) ++ byteOrFF (phaseCode x) =
    match x with
    | .idle => [0, 0xFF]
    | .mount m =>
      [1, match m.phase with
        | .headerScan => 1
        | .slotScan => 2
        | .resolve => 3
        | .repair => 4
        | .enter => 5]
    | .commit b =>
      [2, match b.phase with
        | .write => 1
        | .seal => 2
        | .settle => 3]
    | .erase e =>
      [if e.reclaim = none then 3 else 4, match e.step with
        | .claimed => 1
        | .running => 2
        | .waiting => 3
        | .suspending => 4
        | .suspended => 5
        | .stopping _ => 6
        | .stamping => 7]
    | .reclaim _ => [4, 8]
    | .configWrite w => [5, if w.step = .writing ∨ w.step = .voiding then 2 else 1]
    | .restart _ => [6, 0xFF] := by
  cases x with
  | mount m => cases h : m.phase <;> simp [operationCode, phaseCode, byteOrFF, byte1, h, mountPhaseCode]
  | commit b => cases h : b.phase <;> simp [operationCode, phaseCode, byteOrFF, byte1, h, batchPhaseCode]
  | erase e => cases h : e.reclaim <;> cases h' : e.step <;> simp [operationCode, phaseCode, byteOrFF, byte1, h, h', eraseStepCode]
  | configWrite w => cases h : w.step <;> simp [operationCode, phaseCode, byteOrFF, byte1, h, configPhaseCode]
  | _ => rfl

theorem portBytes (x : Option Port) : byteOrZero (x.map portCode) =
    match x with
    | some .east => [1]
    | some .west => [2]
    | some .tap => [3]
    | none => [0] := by
  match x with
  | some .east => rfl
  | some .west => rfl
  | some .tap => rfl
  | none => rfl

theorem tagBytes (x : Option Byte) : byteOrZero (x.map BitVec.toNat) = [x.getD 0] := by
  cases x with
  | none => rfl
  | some b => exact byte1_toNat b

theorem suspendedBytes (x : Option EraseRec) : byteOrFF (x.map EraseRec.seg) =
    match x with
    | some e => byte1 e.seg
    | none => [0xFF] := by
  cases x <;> rfl

theorem byteOrFF_eq (x : Option Nat) : byteOrFF x =
    match x with
    | some a => byte1 a
    | none => [0xFF] := by
  cases x <;> rfl

theorem segCountBytes (s : State) (x : SegState) : byteOrFF (s.segCount x) =
    if (s.seg 0).state = none then [0xFF]
    else byte1 ((List.range 32).countP (fun g => decide ((s.seg g).state = some x))) := by
  unfold State.segCount
  cases h : (s.seg 0).state <;> rfl

theorem append_congr {a b c d : List Byte} (h1 : a = b) (h2 : c = d) : a ++ c = b ++ d := h1 ▸ h2 ▸ rfl

theorem exec_status {s : State} {p : Port} {tag : Byte} (hd : s.drained = true) (hl : s.opState.linkUp = true)
    (hi : s.inProgress ⟨p, tag⟩ = false) :
    exec (.status p tag []) s = .next (s.replyRead ⟨p, tag⟩ 0x01 .done s.statusResults).examineErase := by
  rw [exec_of_requestOf (k := .status) (o := ⟨p, tag⟩) rfl, receive_known hl (fun _ => rfl) hi, screenKnown_read rfl rfl]
  exact congrArg Host.Outcome.next (settle_replyRead hd _ _ _ _)

/-! ## READ CONFIG and READ COUNTERS -/

theorem byte1_noRouteCode (x : NoRouteAction) : byte1 (noRouteCode x) =
    [match x with
      | .discard => 1
      | .deliver => 2] := by
  cases x <;> rfl

theorem byte1_modeCode (x : Mode) : byte1 (modeCode x) =
    [match x with
      | .run => 1
      | .bypass => 2] := by
  cases x <;> rfl

theorem portOf_eq_some {b : Byte} {q : Port} : portOf b = some q ↔ (b = 1 ∧ q = .east) ∨ (b = 2 ∧ q = .west) ∨ (b = 3 ∧ q = .tap) := by
  have key : ∀ n : Nat, n < 256 → (b = BitVec.ofNat 8 n ↔ b.toNat = n) := fun n h => (toNat_eq_iff h).symm
  rw [show (1 : Byte) = BitVec.ofNat 8 1 from rfl, show (2 : Byte) = BitVec.ofNat 8 2 from rfl,
    show (3 : Byte) = BitVec.ofNat 8 3 from rfl, key 1 (by decide), key 2 (by decide), key 3 (by decide)]
  unfold portOf
  split <;> cases q <;> simp_all

theorem byte1_portCode_of_portOf {b : Byte} {q : Port} (h : portOf b = some q) : byte1 (portCode q) = [b] := by
  obtain ⟨rfl, rfl⟩ | ⟨rfl, rfl⟩ | ⟨rfl, rfl⟩ := portOf_eq_some.1 h
  all_goals rfl

theorem counterResults_eq {s : State} {named : Byte} {q : Port} (h : portOf named = some q) (flag : Byte) :
    s.counterResults q flag = [named, flag] ++ ((s.counters.get q).toList.map byte4).flatten := by
  unfold State.counterResults
  rw [byte1_portCode_of_portOf h]
  rfl

theorem clearForm_eq_false {named flag : Byte} (h : flag ≠ 1) : clearForm [named, flag] = false := by
  unfold clearForm
  exact decide_eq_false h

theorem perform_readCounters {named flag : Byte} (s : State) (o : Origin) (h : flag ≠ 1) :
    s.perform .readCounters o [named, flag] =
      match portOf named with
      | some q =>
        if flag = 0 then s.replyRead o 0x05 .done ([named, 0] ++ ((s.counters.get q).toList.map byte4).flatten)
        else s.replyRead o 0x05 .badRequest []
      | none => s.replyRead o 0x05 .badRequest [] := by
  unfold State.perform State.doReadCounters
  dsimp only
  rw [if_neg h]
  cases hq : portOf named with
  | none => rfl
  | some q =>
    dsimp only
    by_cases hf : flag = 0
    · subst hf
      rw [if_pos rfl, if_pos rfl, counterResults_eq hq]
      rfl
    · rw [if_neg hf, if_neg hf]
      rfl

theorem State.drained_counters {s : State} (hd : s.drained = true) (c : PerPort Counters) :
    ({ s with counters := c } : State).drained = true :=
  hd ▸ State.drained_congr rfl rfl

theorem doClearCounters_eq (s : State) (o : Origin) (named : Byte) : s.doClearCounters o named =
    match portOf named with
    | some q =>
      ({ s with counters := s.counters.set q Counters.zero } : State).replyStored o .readCounters .done
        ([named, 1] ++ ((s.counters.get q).toList.map byte4).flatten)
    | none => s.replyStored o .readCounters .badRequest [] := by
  unfold State.doClearCounters
  cases hq : portOf named with
  | none => rfl
  | some q =>
    dsimp only
    rw [counterResults_eq hq]

theorem settle_doClearCounters {s : State} (hd : s.drained = true) (o : Origin) (named : Byte) :
    (s.doClearCounters o named).settle = (s.doClearCounters o named).examineErase := by
  unfold State.doClearCounters
  split
  · exact settle_replyStored (State.drained_counters hd _) _ _ _ _
  · exact settle_replyStored hd _ _ _ _

theorem stateChanging_readCounters {named flag : Byte} (h : flag ≠ 1) : stateChanging .readCounters [named, flag] = false :=
  clearForm_eq_false (named := named) h

theorem exec_readCounters {s : State} {p : Port} {tag named flag : Byte} (hd : s.drained = true) (ha : s.admitsRead ⟨p, tag⟩ = true)
    (hf : flag ≠ 1) :
    exec (.readCounters p tag [named, flag]) s = .next (s.perform .readCounters ⟨p, tag⟩ [named, flag]).examineErase := by
  rw [exec_of_requestOf (k := .readCounters) (o := ⟨p, tag⟩) rfl, receive_read ha, screenKnown_read (stateChanging_readCounters hf) rfl,
    perform_readCounters s _ hf]
  congr 1
  split
  · split <;> exact settle_replyRead hd _ _ _ _
  · exact settle_replyRead hd _ _ _ _

/-- Settles O23. -/
theorem statusDescriptionConfigAndCountersAreReported : Obligations.StatusDescriptionConfigAndCountersAreReported := by
  unfold Obligations.StatusDescriptionConfigAndCountersAreReported
  refine ⟨fun s p tag hd hl hi => ?status, ⟨Config.revisionIndex.val + 1, Config.factorySerial, by omega, Config.revisionIndex.isLt, fun s p tag hd ha => ?describe⟩,
    fun s p tag hd ha => ⟨?config, fun named flag hf => ?counters⟩, fun b q => portOf_eq_some, rfl, fun c => rfl,
    fun s p tag named hd ha => ?clear⟩
  case status =>
    rw [exec_status hd hl hi]
    refine congrArg (fun r => Host.Outcome.next (s.replyRead ⟨p, tag⟩ 0x01 .done r).examineErase) ?_
    unfold State.statusResults
    rw [byte1_opStateCode hl, List.append_assoc _ (byte1 _) (byteOrFF _), operationBytes,
      show (s.op.origin?.map fun o => portCode o.port) = (s.op.origin?.map Origin.port).map portCode by rw [Option.map_map]; rfl,
      show (s.op.origin?.map fun o => o.tag.toNat) = (s.op.origin?.map Origin.tag).map BitVec.toNat by rw [Option.map_map]; rfl,
      portBytes, tagBytes, suspendedBytes, portBytes, byteOrFF_eq, segCountBytes, segCountBytes, segCountBytes, segCountBytes,
      segCountBytes, segCountBytes, byte1_toNat_bool]
    repeat' apply append_congr
    all_goals rfl
  case describe =>
    rw [exec_of_requestOf (k := .describe) (o := ⟨p, tag⟩) rfl, receive_read ha, screenKnown_read rfl rfl]
    exact congrArg Host.Outcome.next (settle_replyRead hd _ _ _ _)
  case config =>
    rw [exec_of_requestOf (k := .readConfig) (o := ⟨p, tag⟩) rfl, receive_read ha, screenKnown_read rfl rfl, State.perform]
    refine congrArg Host.Outcome.next ((settle_replyRead hd _ _ _ _).trans ?_)
    refine congrArg (fun r => (s.replyRead ⟨p, tag⟩ 0x07 .done r).examineErase) ?_
    unfold configBytes
    rw [byte1_noRouteCode, byte1_modeCode]
    simp only [List.append_assoc]
    cases s.config.source <;> rfl
  case counters =>
    rw [exec_readCounters hd ha hf, perform_readCounters s _ hf] <;> rfl
  case clear =>
    rw [exec_of_requestOf (k := .readCounters) (o := ⟨p, tag⟩) (ps := [named, 1]) rfl, receive_change ha rfl rfl]
    refine congrArg Host.Outcome.next ((settle_doClearCounters hd _ named).trans ?_)
    rw [doClearCounters_eq] <;> rfl

end Sys2Proof.Machine
end

section
/-! PROOF. STAGE, SET MODE and the queued kinds at their reception (R36, R37, R39, R42, R43, R65, R80, R106, R117, R141, R166, R183). -/

namespace Sys2Proof.Machine

open Sys2Proof

/-- A state-changing request that passes the screens is carried out. -/
theorem exec_change {c : Instr} {k : ReqKind} {p : Port} {tag : Byte} {ps : List Byte} {s : State}
    (hc : requestOf c = some (k, ⟨p, tag⟩, ps)) (ha : s.admits ⟨p, tag⟩ = true) (hk : stateChanging k ps = true)
    (hl : lengthGood k ps = true) : exec c s = .next (s.perform k ⟨p, tag⟩ ps).settle := by
  rw [exec_of_requestOf hc, receive_change ha hk hl]

theorem State.admits_opState {s : State} {o : Origin} (h : s.admits o = true) : s.opState = .running ∨ s.opState = .bypass := by
  unfold State.admits State.admitsRead at h
  simp only [Bool.and_eq_true, Bool.or_eq_true, decide_eq_true_eq] at h
  exact h.1.1

/-! ## STAGE -/

theorem Staging.ownedByOther_iff (b : Staging) (p : Port) : b.ownedByOther p = true ↔ b.entries ≠ [] ∧ b.owner ≠ some p := by
  simp [Staging.ownedByOther]

/-- A STAGE with its count in 1..8 goes through the checks of owner, images, channels and room. -/
theorem stageImages_eq (s : State) (o : Origin) (images : List (List Byte)) : s.stageImages o images =
    if s.staging.entries ≠ [] ∧ s.staging.owner ≠ some o.port then s.replyStored o .stage .stageOwned []
    else
      match entriesOf 1 images with
      | .error pos => s.replyStored o .stage .badEntry (byte1 pos)
      | .ok es =>
        match firstDuplicate 1 (s.staging.entries.map Entry.channel) es with
        | some pos => s.replyStored o .stage .duplicateChannel (byte1 pos)
        | none =>
          if 16 < s.staging.entries.length + es.length then
            s.replyStored o .stage .stageFull (byte1 (16 - s.staging.entries.length))
          else s.acceptStage o es := by
  unfold State.stageImages
  simp only [Staging.ownedByOther_iff]
  rfl

theorem acceptStage_eq (s : State) (o : Origin) (es : List Entry) : s.acceptStage o es =
    ({ s with
        staging :=
          { entries := s.staging.entries ++ es
            owner := if s.staging.entries = [] then some o.port else s.staging.owner
            timer := true
            tag := some o.tag } } : State).replyStored o .stage .done (byte1 (s.staging.entries.length + es.length)) := by
  unfold State.acceptStage
  simp only [List.isEmpty_iff, List.length_append]

theorem settle_acceptStage {s : State} (hd : s.drained = true) (o : Origin) (es : List Entry) :
    (s.acceptStage o es).settle = (s.acceptStage o es).examineErase :=
  settle_replyStored (hd ▸ State.drained_congr rfl rfl) _ _ _ _

theorem settle_stageImages {s : State} (hd : s.drained = true) (o : Origin) (images : List (List Byte)) :
    (s.stageImages o images).settle = (s.stageImages o images).examineErase := by
  unfold State.stageImages
  split
  · exact settle_replyStored hd _ _ _ _
  · split
    · exact settle_replyStored hd _ _ _ _
    · split
      · exact settle_replyStored hd _ _ _ _
      · split
        · exact settle_replyStored hd _ _ _ _
        · exact settle_acceptStage hd _ _

theorem settle_doStage {s : State} (hd : s.drained = true) (o : Origin) (ps : List Byte) :
    (s.doStage o ps).settle = (s.doStage o ps).examineErase := by
  unfold State.doStage
  split
  · split
    · exact settle_replyStored hd _ _ _ _
    · exact settle_stageImages hd _ _
  · exact settle_replyStored hd _ _ _ _

/-- Settles O27. -/
theorem stageAppendsWhatPassesItsChecks : Obligations.StageAppendsWhatPassesItsChecks := by
  unfold Obligations.StageAppendsWhatPassesItsChecks
  intro s p tag n images hd ha hl
  rw [exec_change (k := .stage) (ps := n :: images) rfl ha rfl (decide_eq_true hl)]
  refine congrArg Host.Outcome.next ((settle_doStage hd _ _).trans (congrArg State.examineErase ?_))
  unfold State.doStage
  simp only [stageImages_eq, acceptStage_eq]
  rfl

/-! ## SET MODE -/

theorem opState_repeatFrame (s : State) (p : Port) (f : Frame) : (s.repeatFrame p f).opState = s.opState := by
  unfold State.repeatFrame
  split <;> simp

theorem opState_stageLeavesRunning (s : State) (p : Port) : (s.stageLeavesRunning p).opState = s.opState := by
  unfold State.stageLeavesRunning
  split
  · rw [opState_repeatFrame, (sameOutside_withdrawRead _ _ _).opState]
    rfl
  · rfl
  · rfl

theorem exec_setModeRun {s : State} {p : Port} {tag : Byte} (ha : s.admits ⟨p, tag⟩ = true) :
    exec (.setModeRun p tag) s = .next (({ s with opState := .running } : State).replyStored ⟨p, tag⟩ .setMode .done
      (byte1 (opStateCode s.opState) ++ [2])).settle :=
  exec_change (k := .setMode) (ps := [1]) rfl ha rfl rfl

theorem exec_setModeBypass {s : State} {p : Port} {tag : Byte} (ha : s.admits ⟨p, tag⟩ = true) :
    exec (.setModeBypass p tag) s = .next ((s.setMode .bypass).replyStored ⟨p, tag⟩ .setMode .done
      (byte1 (opStateCode s.opState) ++ byte1 (opStateCode (s.setMode .bypass).opState))).settle :=
  exec_change (k := .setMode) (ps := [2]) rfl ha rfl rfl

theorem setMode_bypass_of_bypass {s : State} (h : s.opState = .bypass) : s.setMode .bypass = s := by
  unfold State.setMode
  dsimp only
  rw [if_neg (by rw [h]; decide), ← h]

theorem setMode_bypass_of_running {s : State} (h : s.opState = .running) : s.setMode .bypass =
    ((({ s with opState := .bypass } : State).stageLeavesRunning .east).stageLeavesRunning .west).stageLeavesRunning .tap := by
  unfold State.setMode
  dsimp only
  rw [if_pos h]

theorem stageLeavesRunning_waitBank {s : State} {q : Port} {h : InHand} (hs : s.stages.get q = .waitBank h) :
    s.stageLeavesRunning q = ((s.setStage q .idle).withdrawRead q (bankOf h.addr.seg)).repeatFrame q h.frame := by
  unfold State.stageLeavesRunning
  rw [hs]

theorem stageLeavesRunning_reading {s : State} {q : Port} {h : InHand} (hs : s.stages.get q = .reading h) :
    s.stageLeavesRunning q = s.setStage q (.reading { h with leftRunning := true }) := by
  unfold State.stageLeavesRunning
  rw [hs]

theorem stageLeavesRunning_idle {s : State} {q : Port} (hs : s.stages.get q = .idle) : s.stageLeavesRunning q = s := by
  unfold State.stageLeavesRunning
  rw [hs]

/-- Settles O28. -/
theorem setModeChangesTheOperatingState : Obligations.SetModeChangesTheOperatingState := by
  unfold Obligations.SetModeChangesTheOperatingState
  intro s p tag hd ha
  refine ⟨?_, fun hb => ?_, fun hr => ?_, fun q h => stageLeavesRunning_reading, fun q h hs => ?_, fun q => stageLeavesRunning_idle⟩
  · have hd' : ({ s with opState := .running } : State).drained = true := hd ▸ State.drained_congr rfl rfl
    have hb : byte1 (opStateCode s.opState) = [if s.opState = .running then 2 else 3] := by
      obtain h | h := ha |> State.admits_opState
      all_goals
        rw [h]
        rfl
    rw [exec_setModeRun ha, settle_replyStored hd', hb]
    rfl
  · rw [exec_setModeBypass ha, setMode_bypass_of_bypass hb, hb, settle_replyStored hd]
    rfl
  · rw [exec_setModeBypass ha, setMode_bypass_of_running hr, opState_stageLeavesRunning, opState_stageLeavesRunning,
      opState_stageLeavesRunning, hr]
    rfl
  · rw [stageLeavesRunning_waitBank hs]
    unfold State.repeatFrame
    cases q <;> rfl

/-! ## The queued kinds -/

theorem offer_eq (s : State) (o : Origin) (k : QueuedKind) : s.offer o k =
    match s.op with
    | .restart _ => s.replyStored o k.reqKind .notRunning []
    | _ =>
      if 8 ≤ s.queue.length then s.replyStored o k.reqKind .queueFull []
      else s.enqueued ⟨o, k⟩ := by
  have key : (if Config.queueCapacity ≤ s.queue.length then s.replyStored o k.reqKind .queueFull []
      else if s.queue.isEmpty then ({ s with queue := [{ origin := o, kind := k }] } : State).engineNext
      else { s with queue := s.queue ++ [{ origin := o, kind := k }] }) =
      if 8 ≤ s.queue.length then s.replyStored o k.reqKind .queueFull [] else s.enqueued ⟨o, k⟩ := by
    unfold State.enqueued
    simp only [List.isEmpty_iff]
    by_cases hq : s.queue = []
    · simp only [hq, if_true, List.nil_append]
      rfl
    · simp only [hq, if_false]
      rfl
  unfold State.offer
  rw [key] <;> cases s.op <;> rfl

theorem doCommit_eq (s : State) (o : Origin) : s.doCommit o =
    if s.staging.entries = [] then s.replyStored o .commit .stageEmpty []
    else if s.staging.owner ≠ some o.port then s.replyStored o .commit .stageOwned []
    else if 8 ≤ s.queue.length then s.replyStored o .commit .queueFull []
    else
      match s.op with
      | .restart _ => s.replyStored o .commit .notRunning []
      | _ => ({ s with staging := ⟨[], none, false, none⟩ } : State).enqueued ⟨o, .commit s.staging.entries⟩ := by
  unfold State.doCommit
  simp only [List.isEmpty_iff, Staging.ownedByOther_iff]
  by_cases he : s.staging.entries = []
  · rw [if_pos he, if_pos he]
  · rw [if_neg he, if_neg he]
    simp only [he, ne_eq, not_false_eq_true, true_and]
    by_cases hq : 8 ≤ s.queue.length
    · rw [if_pos (show Config.queueCapacity ≤ s.queue.length from hq), if_pos hq]
    · rw [if_neg (show ¬ Config.queueCapacity ≤ s.queue.length from hq), if_neg hq]
      simp only [offer_eq, hq, if_false]
      cases s.op <;> rfl

theorem doErase_good {s : State} {o : Origin} {g : Byte} (h : g.toNat < 32) : s.doErase o [g] = s.offer o (.erase g.toNat) :=
  if_pos h

theorem doErase_bad {s : State} {o : Origin} {g : Byte} (h : 32 ≤ g.toNat) : s.doErase o [g] = s.replyStored o .erase .badRequest [] :=
  if_neg (Nat.not_lt.2 h)

theorem doReclaim_good {s : State} {o : Origin} {g : Byte} (h : g.toNat < 32) : s.doReclaim o [g] = s.offer o (.reclaim g.toNat) :=
  if_pos h

theorem doReclaim_bad {s : State} {o : Origin} {g : Byte} (h : 32 ≤ g.toNat) :
    s.doReclaim o [g] = s.replyStored o .reclaim .badRequest [] :=
  if_neg (Nat.not_lt.2 h)

theorem doSetConfig_some {s : State} {o : Origin} {ps : List Byte} {img : ConfigImage} (h : configImageOf ps = some img) :
    s.doSetConfig o ps = s.offer o (.setConfig img) := by
  unfold State.doSetConfig
  rw [h]

theorem lengthGood_setConfig {ps : List Byte} {img : ConfigImage} (h : configImageOf ps = some img) : lengthGood .setConfig ps = true := by
  refine decide_eq_true (Decidable.byContradiction fun hn => ?_)
  rw [configImageOf_length hn] at h
  cases h

/-- Settles O29. -/
theorem queuedKindsAreAcceptedOrRefused : Obligations.QueuedKindsAreAcceptedOrRefused := by
  unfold Obligations.QueuedKindsAreAcceptedOrRefused
  refine ⟨fun es g img => ⟨rfl, rfl, rfl, rfl, rfl⟩, fun s p tag ha => ⟨?_, fun c k h => ?_, fun g hg => ⟨?_, ?_⟩⟩⟩
  · have hx : exec (.commit p tag []) s = .next (s.doCommit ⟨p, tag⟩).settle := exec_change (k := .commit) (ps := []) rfl ha rfl rfl
    refine hx.trans (congrArg (fun t => Host.Outcome.next (State.settle t)) ((doCommit_eq _ _).trans ?_))
    cases s.op <;> rfl
  · have hx : exec c s = .next (s.offer ⟨p, tag⟩ k).settle := by
      obtain ⟨g, hg, rfl, rfl⟩ | ⟨g, hg, rfl, rfl⟩ | ⟨ps, img, hi, rfl, rfl⟩ | ⟨rfl, rfl⟩ := h
      · rw [exec_change (k := .erase) (ps := [g]) rfl ha rfl rfl, State.perform, doErase_good hg]
      · rw [exec_change (k := .reclaim) (ps := [g]) rfl ha rfl rfl, State.perform, doReclaim_good hg]
      · rw [exec_change (k := .setConfig) (ps := ps) rfl ha rfl (lengthGood_setConfig hi), State.perform, doSetConfig_some hi]
      · exact exec_change (k := .restart) (ps := []) rfl ha rfl rfl
    refine hx.trans (congrArg (fun t => Host.Outcome.next (State.settle t)) ((offer_eq _ _ _).trans ?_))
    cases s.op <;> rfl
  · rw [exec_change (k := .erase) (ps := [g]) rfl ha rfl rfl, State.perform, doErase_bad hg]
  · rw [exec_change (k := .reclaim) (ps := [g]) rfl ha rfl rfl, State.perform, doReclaim_bad hg]

end Sys2Proof.Machine
end

section
/-! PROOF. The start rule, allocation, and a COMMIT that starts (R16, R47 to R50, R109 to R112). -/

namespace Sys2Proof.Machine

open Sys2Proof

/-! ## The start rule -/

theorem QueuedKind.urgent_iff (k : QueuedKind) : k.urgent = true ↔ (∃ es, k = .commit es) ∨ ∃ img, k = .setConfig img := by
  cases k <;> simp [QueuedKind.urgent]

theorem urgentHead_cons {s : State} {q : QueuedRequest} {qs : List QueuedRequest} (h : s.queue = q :: qs) :
    s.urgentHead = q.kind.urgent := by
  unfold State.urgentHead
  rw [h]

theorem urgentHead_iff (s : State) : s.urgentHead = true ↔
    ∃ (q : QueuedRequest) (qs : List QueuedRequest), s.queue = q :: qs ∧ ((∃ es, q.kind = .commit es) ∨ ∃ img, q.kind = .setConfig img) := by
  simp only [← QueuedKind.urgent_iff]
  cases h : s.queue with
  | nil => simp [State.urgentHead, h]
  | cons q qs => simp [urgentHead_cons h]

/-- One round of the start rule is followed by the start rule for what the start left. -/
theorem runStart_startRequest {s : State} (q : QueuedRequest) :
    State.runStart (s.queue.length + 1) (s.startRequest q) = (s.startRequest q).engineNext := by
  have hl := (queueLength_engine s.queue.length).startRequest (s := s) q (Nat.le_refl _)
  exact runStart_enough _ _ _ (Nat.lt_succ_self _) (Nat.succ_le_succ hl)

theorem engineNext_idle_empty {s : State} (ho : s.op = .idle) (hs : s.suspended = none) (hq : s.queue = []) : s.engineNext = s := by
  unfold State.engineNext State.runStart
  simp only [ho, hs, hq]

theorem engineNext_idle_start {s : State} {q : QueuedRequest} {qs : List QueuedRequest} (ho : s.op = .idle) (hq : s.queue = q :: qs)
    (hs : s.suspended = none ∨ q.kind.urgent = true) :
    s.engineNext = (({ s with queue := qs } : State).startRequest q).engineNext := by
  rw [← runStart_startRequest]
  unfold State.engineNext State.runStart
  rw [hq]
  simp only [ho]
  cases h : s.suspended with
  | none => rfl
  | some e =>
    rw [h] at hs
    have hu := hs.resolve_left (by simp)
    simp only [hu, if_true]
    rfl

theorem engineNext_idle_resume {s : State} {e : EraseRec} (ho : s.op = .idle) (hs : s.suspended = some e) (hu : s.urgentHead = false) :
    s.engineNext = { s with op := .erase e, suspended := none } := by
  unfold State.engineNext State.runStart
  simp only [ho, hs]
  cases hq : s.queue with
  | nil => rfl
  | cons q qs =>
    rw [urgentHead_cons hq] at hu
    simp only [hu, Bool.false_eq_true, if_false]

theorem engineNext_suspended_start {s : State} {e : EraseRec} {q : QueuedRequest} {qs : List QueuedRequest} (ho : s.op = .erase e)
    (he : e.step = .suspended) (hq : s.queue = q :: qs) (hu : q.kind.urgent = true) :
    s.engineNext = (({ s with queue := qs, suspended := some e, op := .idle } : State).startRequest q).engineNext := by
  rw [← runStart_startRequest]
  unfold State.engineNext State.runStart
  rw [hq]
  simp only [ho, he, hu, if_true]
  rfl

theorem engineNext_suspended_stays {s : State} {e : EraseRec} (ho : s.op = .erase e) (hu : s.urgentHead = false) :
    s.engineNext = s := by
  unfold State.engineNext State.runStart
  simp only [ho]
  cases hq : s.queue with
  | nil =>
    cases e.step <;> rfl
  | cons q qs =>
    rw [urgentHead_cons hq] at hu
    cases e.step <;> simp only [hu, Bool.false_eq_true, if_false]

theorem engineNext_busy {s : State} (ho : s.op ≠ .idle) (he : ∀ e, s.op = .erase e → e.step ≠ .suspended) : s.engineNext = s := by
  unfold State.engineNext State.runStart
  cases h : s.op with
  | idle => exact absurd h ho
  | erase e =>
    dsimp only
    split
    · rename_i hx _
      exact absurd hx (he e h)
    · rfl
  | _ => rfl

/-- Settles O30: the rounds are bounded by the length of the queue, which every start leaves no longer. -/
theorem engineStartsTheNextRequest : Obligations.EngineStartsTheNextRequest := by
  unfold Obligations.EngineStartsTheNextRequest
  exact ⟨QueuedKind.urgent_iff, urgentHead_iff, fun _ => engineNext_busy, fun _ => engineNext_idle_empty,
    fun _ _ _ => engineNext_idle_start, fun _ _ => engineNext_idle_resume, fun _ _ _ _ => engineNext_suspended_start,
    fun _ _ ho _ => engineNext_suspended_stays ho⟩

/-! ## Allocation -/

/-- The choice of allocation among the first segments. -/
def State.bestClean (s : State) (n : Nat) : Option Nat :=
  (List.range n).foldl
    (fun best g =>
      if s.segIs g .clean then
        match best with
        | none => some g
        | some b => some (s.lessWorn b g)
      else best)
    none

theorem allocatable_eq (s : State) : s.allocatable = s.bestClean 32 := rfl

theorem bestClean_succ (s : State) (n : Nat) : s.bestClean (n + 1) =
    if s.segIs n .clean then
      match s.bestClean n with
      | none => some n
      | some b => some (s.lessWorn b n)
    else s.bestClean n := by
  unfold State.bestClean
  rw [List.range_succ, List.foldl_append] <;> rfl

/-- The CLEAN segment of the least erase count, the first of several, is chosen; none is when none is CLEAN. -/
theorem bestClean_spec (s : State) (n : Nat) :
    match s.bestClean n with
    | some g => g < n ∧ s.segIs g .clean = true ∧
        ∀ x, x < n → s.segIs x .clean = true → s.erasesOf g ≤ s.erasesOf x ∧ (s.erasesOf g = s.erasesOf x → g ≤ x)
    | none => ∀ x, x < n → s.segIs x .clean = false := by
  induction n with
  | zero => exact fun x hx => absurd hx (Nat.not_lt_zero x)
  | succ n ih =>
    rw [bestClean_succ]
    cases hc : s.segIs n .clean with
    | false =>
      rw [if_neg Bool.false_ne_true]
      cases hb : s.bestClean n with
      | none =>
        rw [hb] at ih
        intro x hx
        rcases Nat.lt_succ_iff_lt_or_eq.1 hx with hx | rfl
        · exact ih x hx
        · exact hc
      | some g =>
        rw [hb] at ih
        obtain ⟨h1, h2, h3⟩ := ih
        refine ⟨by omega, h2, fun x hx hxc => ?_⟩
        rcases Nat.lt_succ_iff_lt_or_eq.1 hx with hx | rfl
        · exact h3 x hx hxc
        · exact absurd hxc (by rw [hc]; decide)
    | true =>
      rw [if_pos rfl]
      cases hb : s.bestClean n with
      | none =>
        rw [hb] at ih
        refine ⟨by omega, hc, fun x hx hxc => ?_⟩
        rcases Nat.lt_succ_iff_lt_or_eq.1 hx with hx | rfl
        · exact absurd hxc (by rw [ih x hx]; decide)
        · exact ⟨Nat.le_refl _, fun _ => Nat.le_refl _⟩
      | some g =>
        rw [hb] at ih
        obtain ⟨h1, h2, h3⟩ := ih
        dsimp only
        unfold State.lessWorn
        split
        · rename_i hl
          refine ⟨by omega, hc, fun x hx hxc => ?_⟩
          rcases Nat.lt_succ_iff_lt_or_eq.1 hx with hx | rfl
          · have := h3 x hx hxc
            omega
          · exact ⟨Nat.le_refl _, fun _ => Nat.le_refl _⟩
        · rename_i hl
          refine ⟨by omega, h2, fun x hx hxc => ?_⟩
          rcases Nat.lt_succ_iff_lt_or_eq.1 hx with hx | rfl
          · exact h3 x hx hxc
          · omega

theorem allocatable_some {s : State} {g : Nat} (h : s.allocatable = some g) :
    g < 32 ∧ s.segIs g .clean = true ∧
      ∀ x : Nat, x < 32 → s.segIs x .clean = true → s.erasesOf g ≤ s.erasesOf x ∧ (s.erasesOf g = s.erasesOf x → g ≤ x) := by
  have hs := bestClean_spec s 32
  rw [← allocatable_eq, h] at hs
  exact hs

theorem allocatable_none {s : State} (h : s.allocatable = none) : ∀ x : Nat, x < 32 → s.segIs x .clean = false := by
  have hs := bestClean_spec s 32
  rw [← allocatable_eq, h] at hs
  exact hs

theorem openSeg_eq_some {s : State} (h : s.atMostOneOpen = true) (g : Nat) :
    s.openSeg = some g ↔ g < 32 ∧ (s.seg g).state = some .opened := by
  rw [← State.segIs_iff]
  constructor
  · exact openSeg_some
  · rintro ⟨hg, ho⟩
    exact find_range _ 32 g hg ho fun x hx ox => (atMostOneOpen_iff s).1 h x g hx hg ox ho

/-- The segment to be allocated for a batch, or no room. -/
def State.freshPlacement (s : State) : Placement :=
  match s.allocatable with
  | some g => .inFresh g
  | none => .noRoom

theorem placement_room {s : State} {n o : Nat} (ho : s.openSeg = some o) (h : n ≤ 64 - s.fillOf o) : s.placement n = .inOpen := by
  unfold State.placement
  rw [ho]
  exact if_pos h

theorem placement_full {s : State} {n : Nat} (h : ∀ o, s.openSeg = some o → ¬ n ≤ 64 - s.fillOf o) : s.placement n = s.freshPlacement := by
  unfold State.placement State.freshPlacement
  cases ho : s.openSeg with
  | none => rfl
  | some o => exact if_neg (h o ho)

theorem freshPlacement_eq_inFresh {s : State} {g : Nat} : s.freshPlacement = .inFresh g ↔ s.allocatable = some g := by
  unfold State.freshPlacement
  cases s.allocatable <;> simp

theorem freshPlacement_eq_noRoom {s : State} : s.freshPlacement = .noRoom ↔ s.allocatable = none := by
  unfold State.freshPlacement
  cases s.allocatable <;> simp

theorem freshPlacement_ne_inOpen (s : State) : s.freshPlacement ≠ .inOpen := by
  unfold State.freshPlacement
  cases s.allocatable <;> simp

/-- The space check (R49): the OPEN segment when it has room, else what allocation finds. -/
theorem placement_cases (s : State) {n : Nat} (hn : 1 ≤ n) :
    ((∃ o, s.openSeg = some o ∧ s.fillOf o + n ≤ 64) ∧ s.placement n = .inOpen) ∨
      ((∀ o, s.openSeg = some o → 64 < s.fillOf o + n) ∧ s.placement n = s.freshPlacement) := by
  by_cases h : ∃ o, s.openSeg = some o ∧ s.fillOf o + n ≤ 64
  · obtain ⟨o, ho, hr⟩ := h
    exact .inl ⟨⟨o, ho, hr⟩, placement_room ho (by omega)⟩
  · have hf : ∀ o, s.openSeg = some o → 64 < s.fillOf o + n := fun o ho => Nat.not_le.1 fun hr => h ⟨o, ho, hr⟩
    exact .inr ⟨hf, placement_full fun o ho => by have := hf o ho; omega⟩

/-- Settles O31. -/
theorem allocationTakesTheLeastWornCleanSegment : Obligations.AllocationTakesTheLeastWornCleanSegment := by
  unfold Obligations.AllocationTakesTheLeastWornCleanSegment
  refine ⟨fun s => ⟨fun g => allocatable_some, allocatable_none⟩, fun s h => openSeg_eq_some h, fun s n hn => ?_⟩
  obtain ⟨⟨o, ho, hr⟩, hp⟩ | ⟨hf, hp⟩ := placement_cases s hn
  · have hnf : ¬ ∀ o, s.openSeg = some o → 64 < s.fillOf o + n := fun h => by have := h o ho; omega
    exact ⟨iff_of_true hp ⟨o, ho, hr⟩, fun g => iff_of_false (by rw [hp]; simp) fun h => hnf h.1,
      iff_of_false (by rw [hp]; simp) fun h => hnf h.1⟩
  · refine ⟨iff_of_false (by rw [hp]; exact freshPlacement_ne_inOpen s) ?_, fun g => ?_, ?_⟩
    · rintro ⟨o, ho, hr⟩
      have := hf o ho
      omega
    · rw [hp, freshPlacement_eq_inFresh]
      exact ⟨fun h => ⟨hf, h⟩, fun h => h.2⟩
    · rw [hp, freshPlacement_eq_noRoom]
      exact ⟨fun h => ⟨hf, h⟩, fun h => h.2⟩

end Sys2Proof.Machine
end

section
/-! PROOF. A COMMIT and an ERASE that start (R47 to R50, R66, R67). -/

namespace Sys2Proof.Machine

open Sys2Proof

/-! ## The guarded range -/

theorem ConfigRecord.guards_iff (c : ConfigRecord) (ch : Nat) : c.guards ch = true ↔ c.guardLow ≤ ch ∧ ch ≤ c.guardHigh := by
  simp [ConfigRecord.guards]

theorem firstGuarded_eq (c : ConfigRecord) (es : List Entry) :
    firstGuarded c es = (es.find? (fun e => c.guards e.channel)).map Entry.channel := by
  induction es with
  | nil => rfl
  | cons e es ih =>
    rw [firstGuarded, ih, List.find?_cons]
    cases c.guards e.channel <;> rfl

theorem firstGuarded_eq_none (c : ConfigRecord) (es : List Entry) :
    firstGuarded c es = none ↔ ∀ x ∈ es, ¬ (c.guardLow ≤ x.channel ∧ x.channel ≤ c.guardHigh) := by
  rw [firstGuarded_eq]
  simp only [Option.map_eq_none_iff, List.find?_eq_none, ConfigRecord.guards_iff]

theorem firstGuarded_eq_some (c : ConfigRecord) (es : List Entry) (ch : Nat) : firstGuarded c es = some ch ↔
    ∃ (before after : List Entry) (e : Entry), es = before ++ e :: after ∧ e.channel = ch ∧ c.guardLow ≤ ch ∧ ch ≤ c.guardHigh ∧
      ∀ x ∈ before, ¬ (c.guardLow ≤ x.channel ∧ x.channel ≤ c.guardHigh) := by
  rw [firstGuarded_eq]
  simp only [Option.map_eq_some_iff, List.find?_eq_some_iff_append, ConfigRecord.guards_iff, Bool.not_eq_true', ← Bool.not_eq_true]
  constructor
  · rintro ⟨e, ⟨⟨h1, h2⟩, before, after, he, hb⟩, rfl⟩
    exact ⟨before, after, e, he, rfl, h1, h2, hb⟩
  · rintro ⟨before, after, e, he, rfl, h1, h2, hb⟩
    exact ⟨e, ⟨⟨h1, h2⟩, before, after, he, hb⟩, rfl⟩

/-! ## Allocation made -/

/-- Allocation opens the chosen segment and fills the one that was OPEN (R16). -/
theorem seg_allocate {s : State} (hc : s.canonical = true) {g : Nat} (hg : s.openSeg ≠ some g) (x : Nat) :
    (s.allocate g).seg x =
      if x = g then { s.seg g with state := some .opened, fill := some 0 }
      else if s.openSeg = some x then { s.seg x with state := some .filled }
      else s.seg x := by
  unfold State.allocate State.setSegFill State.setSegState
  cases ho : s.openSeg with
  | none =>
    dsimp only
    rw [seg_setSeg (segs_of_canonical hc)]
    simp
  | some o =>
    have hgo : g ≠ o := fun e => hg (by rw [ho, e])
    dsimp only
    rw [seg_setSeg (segs_of_canonical (canonical_setSeg _ _ hc)), seg_setSeg (segs_of_canonical hc), seg_setSeg (segs_of_canonical hc),
      if_neg hgo]
    by_cases hx : x = g
    · rw [if_pos hx, if_pos hx]
    · rw [if_neg hx, if_neg hx]
      simp only [Option.some.injEq, eq_comm (a := o)]
      split
      · rename_i h
        rw [h]
      · rfl

theorem allocate_eq (s : State) (g : Nat) : s.allocate g = { s with segs := (s.allocate g).segs } := by
  unfold State.allocate
  cases s.openSeg <;> rfl

theorem canonical_allocate {s : State} (g : Nat) (hc : s.canonical = true) : (s.allocate g).canonical = true :=
  allocate_keeps (P := fun s => s.canonical = true) (fun _ g v => canonical_setSeg g v) g hc

theorem openSeg_allocate {s : State} (hc : s.canonical = true) (h1 : s.atMostOneOpen = true) {g : Nat} (hg : g < 32)
    (hn : s.openSeg ≠ some g) : (s.allocate g).openSeg = some g := by
  have hs := seg_allocate hc hn
  refine find_range _ 32 g hg ?_ fun x hx ox => ?_
  · rw [State.segIs_iff, hs, if_pos rfl]
  · by_cases e : x = g
    · exact e
    · rw [State.segIs_iff, hs, if_neg e] at ox
      split at ox
      · cases ox
      · rename_i hox
        exact absurd ((openSeg_eq_some h1 x).2 ⟨hx, ox⟩) hox

/-! ## The start of a batch -/

theorem issueExhausted_iff (s : State) : s.issueExhausted = true ↔ 4294967295 ≤ s.issueNow := by
  unfold State.issueExhausted
  exact decide_eq_true_iff

theorem issueExhausted_of_issue {s : State} {i : Nat} (h : s.issue = some i) (hi : i < 4294967295) : s.issueExhausted = false := by
  rw [← Bool.not_eq_true, issueExhausted_iff, show s.issueNow = i by rw [State.issueNow, h]; rfl]
  omega

theorem issueNow_of_issue {s : State} {i : Nat} (h : s.issue = some i) : s.issueNow = i := by
  rw [State.issueNow, h]
  rfl

theorem startCommit_guarded {s : State} {o : Origin} {es : List Entry} {ch : Nat} (hg : s.guardRelease = false)
    (hf : firstGuarded s.config.values es = some ch) : s.startCommit o es = s.replyStored o .commit .guarded (byte2 ch) := by
  unfold State.startCommit
  rw [hg, hf]

/-- A batch that the strap allows goes on to the space check and the issue check. -/
theorem startCommit_allowed {s : State} {o : Origin} {es : List Entry}
    (h : s.guardRelease = true ∨ firstGuarded s.config.values es = none) : s.startCommit o es =
    match s.placement (es.length + 1) with
    | .noRoom => s.replyStored o .commit .noSpace (byte1 (es.length + 1))
    | pl =>
      if s.issueExhausted then s.replyStored o .commit .issueExhausted []
      else s.beginBatch o es pl .commit := by
  unfold State.startCommit
  cases hg : s.guardRelease with
  | true => cases firstGuarded s.config.values es <;> rfl
  | false =>
    rw [h.resolve_left (by rw [hg]; decide)] <;> rfl

theorem startCommit_noRoom {s : State} {o : Origin} {es : List Entry}
    (h : s.guardRelease = true ∨ firstGuarded s.config.values es = none) (hp : s.placement (es.length + 1) = .noRoom) :
    s.startCommit o es = s.replyStored o .commit .noSpace (byte1 (es.length + 1)) := by
  rw [startCommit_allowed h, hp]

theorem startCommit_exhausted {s : State} {o : Origin} {es : List Entry}
    (h : s.guardRelease = true ∨ firstGuarded s.config.values es = none) (hp : s.placement (es.length + 1) ≠ .noRoom)
    (hi : s.issueExhausted = true) : s.startCommit o es = s.replyStored o .commit .issueExhausted [] := by
  rw [startCommit_allowed h]
  cases hx : s.placement (es.length + 1) with
  | noRoom => exact absurd hx hp
  | inOpen => exact if_pos hi
  | inFresh g => exact if_pos hi

theorem startCommit_begins {s : State} {o : Origin} {es : List Entry}
    (h : s.guardRelease = true ∨ firstGuarded s.config.values es = none) (hp : s.placement (es.length + 1) ≠ .noRoom)
    (hi : s.issueExhausted = false) : s.startCommit o es = s.beginBatch o es (s.placement (es.length + 1)) .commit := by
  rw [startCommit_allowed h]
  cases hx : s.placement (es.length + 1) with
  | noRoom => exact absurd hx hp
  | inOpen => exact if_neg (by rw [hi]; decide)
  | inFresh g => exact if_neg (by rw [hi]; decide)

/-- The first program of a batch is issued in the segment that stands OPEN after allocation (R50, R83); `f` is the current operation
that holds the batch. -/
theorem beginBatch_placed {s : State} {o : Origin} {e : Entry} {es : List Entry} {pl : Placement} {g i : Nat} {f : Batch → CurrentOp}
    (hf : ∀ (x : State) (b c : Batch), ({ x with op := f b } : State).setBatch c = { x with op := f c }) (hi : s.issue = some i)
    (hg : (s.allocateFor pl).openSeg = some g) :
    s.beginBatch o (e :: es) pl f =
      (({ s.allocateFor pl with
          issue := some (i + 1)
          op := f ⟨o, e :: es, i, g, (s.allocateFor pl).fillOf g, .write, .write 0, [], [], 0⟩ } : State).setSeg g
        { (s.allocateFor pl).seg g with fill := some ((s.allocateFor pl).fillOf g + 1) }).claimProgram
          ⟨.write, .slot ⟨g, (s.allocateFor pl).fillOf g⟩ (.entry i e)⟩ := by
  unfold State.beginBatch State.newBatch
  dsimp only
  rw [hg, issueNow_of_issue hi]
  unfold State.issueWrite
  simp only [List.getElem?_cons_zero]
  rw [hf { s.allocateFor pl with issue := some (i + 1) }]
  rfl

/-- A batch placed in a fresh segment: what the segment values hold when its first program is claimed (R50, R83). -/
theorem beginBatch_inFresh {s : State} {o : Origin} {e : Entry} {es : List Entry} {n g i : Nat} {f : Batch → CurrentOp}
    (hf : ∀ (x : State) (b c : Batch), ({ x with op := f b } : State).setBatch c = { x with op := f c }) (hc : s.canonical = true)
    (h1 : s.atMostOneOpen = true) (hi : s.issue = some i) (hn : 1 ≤ n) (hp : s.placement n = .inFresh g) :
    ∃ t : State, s.beginBatch o (e :: es) (.inFresh g) f = t.claimProgram ⟨.write, .slot ⟨g, 0⟩ (.entry i e)⟩ ∧
      t.issue = some (i + 1) ∧ t.op = f ⟨o, e :: es, i, g, 0, .write, .write 0, [], [], 0⟩ ∧
      t.seg g = { s.seg g with state := some .opened, fill := some 1 } ∧
      (∀ f, s.openSeg = some f → t.seg f = { s.seg f with state := some .filled }) ∧
      (∀ f, f ≠ g → s.openSeg ≠ some f → t.seg f = s.seg f) ∧
      t = { s with issue := t.issue, op := t.op, segs := t.segs } := by
  obtain ⟨-, hx⟩ | ⟨-, hx⟩ := placement_cases s hn
  · rw [hp] at hx
    cases hx
  rw [hp] at hx
  obtain ⟨hg, hcl, -⟩ := allocatable_some (freshPlacement_eq_inFresh.1 hx.symm)
  have hopen : s.openSeg ≠ some g := fun ho => by
    have := (openSeg_some ho).2
    rw [State.segIs_iff] at this hcl
    rw [this] at hcl
    cases hcl
  have hs := seg_allocate hc hopen
  have hseg : (s.allocate g).seg g = { s.seg g with state := some .opened, fill := some 0 } := by rw [hs, if_pos rfl]
  have hfill : (s.allocate g).fillOf g = 0 := by rw [State.fillOf, hseg]; rfl
  have hca := segs_of_canonical (canonical_allocate g hc)
  rw [beginBatch_placed (pl := .inFresh g) hf hi (openSeg_allocate hc h1 hg hopen)]
  simp only [State.allocateFor, hfill]
  refine ⟨_, rfl, rfl, rfl, ?_, fun x hx => ?_, fun x hxg hx => ?_, ?_⟩
  · rw [seg_setSeg (by exact hca), if_pos rfl]
    exact congrArg (fun v : SegVol => { v with fill := some 1 }) hseg
  · have hne : x ≠ g := fun e => hopen (e ▸ hx)
    rw [seg_setSeg (by exact hca), if_neg hne]
    exact (hs x).trans (by rw [if_neg hne, if_pos hx])
  · rw [seg_setSeg (by exact hca), if_neg hxg]
    exact (hs x).trans (by rw [if_neg hxg, if_neg hx])
  · rw [allocate_eq]
    rfl

/-- Settles O32: the checks in their order, then the first program where the space check places the batch. -/
theorem commitStartsWhenItsChecksPass : Obligations.CommitStartsWhenItsChecksPass := by
  unfold Obligations.CommitStartsWhenItsChecksPass
  refine ⟨fun s o es => rfl, fun c es => ⟨firstGuarded_eq_some c es, firstGuarded_eq_none c es⟩, fun s o e es hc h1 => ?_⟩
  refine ⟨fun ch => startCommit_guarded, fun h => ⟨startCommit_noRoom h, fun hp hi => ?_, fun i hi hl => ⟨fun g hp hg => ?_, fun g hp => ?_⟩⟩⟩
  · exact startCommit_exhausted h hp ((issueExhausted_iff s).2 hi)
  · have hp' : s.placement ((e :: es).length + 1) = .inOpen := hp
    rw [startCommit_begins h (by rw [hp']; simp) (issueExhausted_of_issue hi hl), hp']
    exact beginBatch_placed (pl := .inOpen) (f := .commit) (fun _ _ _ => rfl) hi hg
  · have hp' : s.placement ((e :: es).length + 1) = .inFresh g := hp
    rw [startCommit_begins h (by rw [hp']; simp) (issueExhausted_of_issue hi hl), hp']
    exact beginBatch_inFresh (f := .commit) (fun _ _ _ => rfl) hc h1 hi (Nat.succ_pos _) hp'

/-! ## An ERASE that starts -/

/-- Settles O33. -/
theorem eraseStartsWhenItsChecksPass : Obligations.EraseStartsWhenItsChecksPass := by
  unfold Obligations.EraseStartsWhenItsChecksPass
  intro s o g ho
  have hend : ∀ (x : State), x.op = .idle → x.endOp = x := by
    intro x hx
    unfold State.endOp
    rw [← hx]
  unfold State.startRequest State.checkErase State.worn
  simp only [decide_eq_true_eq]
  congr 1
  · exact hend _ (by simp [State.replyErase, ho])
  · congr 1
    exact hend _ (by simp [State.replyErase, ho])

end Sys2Proof.Machine
end

section
/-! PROOF. A RESTART that starts, and ABANDON (R76, R77, R114 to R118). -/

namespace Sys2Proof.Machine

open Sys2Proof

/-! ## Replies change the reply memories, the counters and the egress side alone -/

/-- The second state differs from the first in the reply memories, the counters, the egress FIFOs and the transmitters at most. -/
def SameButReplies (s x : State) : Prop :=
  x = { s with
    memory := x.memory
    counters := x.counters
    replies := x.replies
    traffic := x.traffic
    lineTx := x.lineTx
    delivery := x.delivery
    tapTx := x.tapTx }

theorem SameButReplies.trans {s x y : State} (hx : SameButReplies s x) (hy : SameButReplies x y) : SameButReplies s y := by
  unfold SameButReplies at hx
  refine Eq.trans hy ?_
  rw [hx]

theorem sameButReplies_kickLine (s : State) (l : Line) : SameButReplies s (s.kickLine l) := by
  obtain e | ⟨-, r, rs, -, e⟩ | ⟨-, -, f, fs, -, e⟩ := kickLine_cases s l
  all_goals
    rw [e]
    rfl

theorem sameButReplies_kickTap (s : State) : SameButReplies s s.kickTap := by
  obtain e | ⟨-, d, ds, -, e⟩ := kickTap_cases s
  all_goals
    rw [e]
    rfl

theorem sameButReplies_appendReply (s : State) (l : Line) (o : Outgoing) : SameButReplies s (s.appendReply l o) :=
  SameButReplies.trans (x := { s with replies := s.replies.set l (s.replies.get l ++ [o]) }) rfl (sameButReplies_kickLine _ l)

theorem sameButReplies_placeReply (s : State) (p : Port) (o : Outgoing) : SameButReplies s (s.placeReply p o) := by
  unfold State.placeReply
  split
  · split
    · exact sameButReplies_appendReply s _ o
    · exact sameButReplies_appendReply s _ o
    · exact SameButReplies.trans (x := { s with delivery := s.delivery ++ [o] }) rfl (sameButReplies_kickTap _)
  · rfl

theorem sameButReplies_replyAwaited (s : State) (o : Origin) (k : ReqKind) (st : Status) :
    SameButReplies s (s.replyAwaited o k st) :=
  SameButReplies.trans (x := s.remember o k.code st.code []) rfl (sameButReplies_placeReply _ _ _)

theorem sameButReplies_cancelAll (qs : List QueuedRequest) (n : Nat) (s : State) : SameButReplies s (State.cancelAll qs n s).1 := by
  induction qs generalizing n s with
  | nil => rfl
  | cons q qs ih => exact (sameButReplies_replyAwaited s _ _ _).trans (ih _ _)

theorem SameButReplies.config {s x : State} (h : SameButReplies s x) : x.config = s.config :=
  (congrArg State.config h).trans rfl

/-! ## RESTART -/

theorem startRestart_eq (s : State) (o : Origin) : s.startRestart o =
    (let u := (State.cancelAll s.queue 0 { s with queue := [] }).1
     let n := (State.cancelAll s.queue 0 { s with queue := [] }).2 + (if u.replyRoom o.port = true then 1 else 0)
     let t := u.replyAwaited o .restart .done
     if n = 0 then t.internalReset else { t with op := .restart ⟨o, n⟩ }) := by
  unfold State.startRestart
  dsimp only
  have hn : ∀ (b : Bool) (n : Nat), (if b = true then n + 1 else n) = n + (if b = true then 1 else 0) := by
    intro b n
    cases b <;> rfl
  rw [hn]

/-- Settles O34. -/
theorem restartAwaitsItsReplies : Obligations.RestartAwaitsItsReplies := by
  unfold Obligations.RestartAwaitsItsReplies
  refine ⟨fun s => ⟨mountBegun_volatileReset s, rfl, rfl, rfl⟩, fun s => ⟨fun l => ?_, ?_⟩, fun s o => ?_, fun s n => rfl,
    fun s q qs n => rfl, fun qs n s => sameButReplies_cancelAll qs n s⟩
  · rw [replyRoom_linePort, decide_eq_true_iff]
  · unfold State.replyRoom
    rw [decide_eq_true_iff]
    rfl
  · have hc : (State.cancelAll s.queue 0 { s with queue := [] }).1.config = s.config := (sameButReplies_cancelAll _ _ _).config
    refine (startRestart_eq s o).trans ?_
    unfold State.replyAwaited State.emitReply State.remember
    dsimp only
    rw [hc]
    rfl

/-! ## ABANDON -/

theorem exec_abandon {s : State} {p : Port} {tag : Byte} (ha : s.admits ⟨p, tag⟩ = true) (t : Byte) :
    exec (.abandon p tag [t]) s = .next (s.abandonTarget ⟨p, tag⟩ ⟨p, t⟩).settle :=
  exec_change (k := .abandon) (ps := [t]) rfl ha rfl rfl

theorem abandonTarget_queued {s : State} {o target : Origin} {q : QueuedRequest}
    (h : s.queue.find? (fun x => x.origin = target) = some q) : s.abandonTarget o target = s.abandonQueued o q := by
  unfold State.abandonTarget
  rw [h]

theorem abandonTarget_current {s : State} {o target : Origin} (h : s.queue.find? (fun x => x.origin = target) = none)
    (ho : s.op.origin? = some target) : s.abandonTarget o target = s.abandonCurrent o := by
  unfold State.abandonTarget
  rw [h]
  exact if_pos ho

theorem abandonTarget_suspended {s : State} {o target : Origin} {e : EraseRec} (h : s.queue.find? (fun x => x.origin = target) = none)
    (ho : s.op.origin? ≠ some target) (hs : s.suspended = some e) (he : e.origin = target) :
    s.abandonTarget o target = s.abandonErase o e := by
  unfold State.abandonTarget
  rw [h, hs]
  dsimp only
  rw [if_neg ho, if_pos he]

theorem abandonTarget_nowhere {s : State} {o target : Origin} (h : s.queue.find? (fun x => x.origin = target) = none)
    (ho : s.op.origin? ≠ some target) (hs : s.suspended.map EraseRec.origin ≠ some target) :
    s.abandonTarget o target = s.answerAbandon o .notFound := by
  unfold State.abandonTarget
  rw [h]
  dsimp only
  rw [if_neg ho]
  cases hx : s.suspended with
  | none => rfl
  | some e =>
    rw [hx] at hs
    exact if_neg fun he => hs (congrArg some he)

theorem abandonCurrent_reclaim {s : State} {o : Origin} {r : ReclaimRec} (h : s.op = .reclaim r) :
    s.abandonCurrent o = ({ s with op := .reclaim { r with abandoned := true } } : State).answerAbandon o .done := by
  unfold State.abandonCurrent
  rw [h]

theorem abandonCurrent_erase {s : State} {o : Origin} {e : EraseRec} (h : s.op = .erase e) : s.abandonCurrent o = s.abandonErase o e := by
  unfold State.abandonCurrent
  rw [h]

/-- A COMMIT, SET CONFIG or RESTART under way is not cancelled. -/
theorem abandonCurrent_notCancellable {s : State} (o : Origin)
    (h : (∃ b, s.op = .commit b) ∨ (∃ w, s.op = .configWrite w) ∨ ∃ r, s.op = .restart r) :
    s.abandonCurrent o = s.answerAbandon o .notCancellable := by
  unfold State.abandonCurrent
  obtain ⟨b, h⟩ | ⟨w, h⟩ | ⟨r, h⟩ := h
  all_goals rw [h]

theorem abandonErase_suspended {s : State} {o : Origin} {e : EraseRec} (h : e.step = .suspended) :
    s.abandonErase o e = ((s.eraseAbandoned e).answerAbandon o .done).engineNext := by
  unfold State.abandonErase
  rw [h]

theorem EraseRec.hold_eq (e : EraseRec) (c : StopCause) : e.hold c = { e with held := if c ∈ e.held then e.held else e.held ++ [c] } := by
  unfold EraseRec.hold
  split <;> rfl

theorem abandonQueued_eq {s : State} {o : Origin} {q : QueuedRequest} {target : Origin} (h : q.origin = target) :
    s.abandonQueued o q =
      (let u := (({ s with queue := s.queue.filter (fun x => x.origin ≠ target) } : State).replyStored target q.kind.reqKind
          .cancelled []).answerAbandon o .done
       if s.queue.head? = some q then u.engineNext else u) := by
  unfold State.abandonQueued
  subst h
  simp only [decide_eq_true_eq]

/-- Settles O35. -/
theorem abandonActsByWhereItsTargetStands : Obligations.AbandonActsByWhereItsTargetStands := by
  unfold Obligations.AbandonActsByWhereItsTargetStands
  refine ⟨fun s e => rfl, fun s p tag t ha => ?_⟩
  refine ⟨fun q hq => ?_, fun hq => ⟨fun ho hs => ?_, fun r hr hro => ?_, fun hb ho => ?_, fun e he heo => ?_⟩, fun e hq ho hs heo hst => ?_⟩
  all_goals rw [exec_abandon ha]
  · have hqo : q.origin = ⟨p, t⟩ := by simpa using List.find?_some hq
    rw [abandonTarget_queued hq, abandonQueued_eq hqo]
    rfl
  · rw [abandonTarget_nowhere hq ho hs]
    rfl
  · rw [abandonTarget_current hq (by rw [hr, ← hro]; rfl), abandonCurrent_reclaim hr]
    rfl
  · rw [abandonTarget_current hq ho, abandonCurrent_notCancellable _ hb]
    rfl
  · rw [abandonTarget_current hq (by rw [he, ← heo]; rfl), abandonCurrent_erase he]
    unfold State.abandonErase State.answerAbandon
    simp only [mapErase_of_erase he, EraseRec.hold_eq]
    cases hst : e.step with
    | stopping c => cases c <;> rfl
    | _ => rfl
  · rw [abandonTarget_suspended hq ho hs heo, abandonErase_suspended hst]
    rfl

end Sys2Proof.Machine
end

section
/-! PROOF. Arrivals: queued, carried across, repeated, looked up, handed over (R92, R100, R124 to R129, R139, R140, R144 to R147). -/

namespace Sys2Proof.Machine

open Sys2Proof

/-! ## What the handling of a frame leaves idle -/

theorem drained_count {s : State} (h : s.drained = true) (p : Port) (c : Counter) : (s.count p c).drained = true :=
  h ▸ State.drained_congr rfl rfl

theorem drained_placeTraffic {s : State} (h : s.drained = true) (l : Line) (f : Frame) : (s.placeTraffic l f).drained = true :=
  h ▸ State.drained_congr (by simp) (by simp)

theorem drained_carryTraffic {s : State} (h : s.drained = true) (l : Line) (f : Frame) : (s.carryTraffic l f).drained = true :=
  h ▸ State.drained_congr (by simp) (by simp)

theorem drained_placeDelivery {s : State} (h : s.drained = true) (f : Frame) : (s.placeDelivery f).drained = true :=
  h ▸ State.drained_congr (by simp) (by simp)

theorem drained_replyRead {s : State} (h : s.drained = true) (o : Origin) (k : Byte) (st : Status) (rs : List Byte) :
    (s.replyRead o k st rs).drained = true :=
  h ▸ State.drained_congr (by simp) (by simp)

theorem BankState.readable_iff (x : BankState) : x.readable = true ↔ x = .free ∨ x = .eraseSuspended := by
  cases x <;> decide

/-- A read starts in a readable bank with nothing waiting, else it joins the queue (R92, R100). -/
theorem requestRead_eq (s : State) (p : Port) (h : InHand) (a : SlotAddr) : s.requestRead p h a =
    if ((s.bank (bankOf a.seg)).state = .free ∨ (s.bank (bankOf a.seg)).state = .eraseSuspended) ∧ (s.bank (bankOf a.seg)).queue = [] ∧
        (s.bank (bankOf a.seg)).inFlight = none then
      (s.setBank (bankOf a.seg) { s.bank (bankOf a.seg) with inFlight := some ⟨.slot a, .lookup p, false⟩ }).setStage p
        (.reading { h with addr := a })
    else
      (s.setBank (bankOf a.seg) { s.bank (bankOf a.seg) with
          queue := (s.bank (bankOf a.seg)).queue ++ [⟨a, p, s.config.values.holdLimit, false⟩] }).setStage p
        (.waitBank { h with addr := a }) := by
  unfold State.requestRead
  simp only [Bool.and_eq_true, BankState.readable_iff, List.isEmpty_iff, Option.isNone_iff_eq_none, and_assoc]

theorem drained_setBank {s : State} (h : s.drained = true) (b : Bank) (u : BankUnit) : (s.setBank b u).drained = true :=
  h ▸ State.drained_congr rfl rfl

theorem drained_requestRead {s : State} (hd : s.drained = true) (p : Port) (h : InHand) (a : SlotAddr) :
    (s.requestRead p h a).drained = true := by
  rw [requestRead_eq]
  split
  · exact drained_setStage (drained_setBank hd _ _) p (by simp)
  · exact drained_setStage (drained_setBank hd _ _) p (by simp)

/-! ## Arrivals -/

theorem drained_ingress_busy {s : State} (h : s.drained = true) {p : Port} (hb : s.stages.get p ≠ .idle) (fs : List Frame) :
    ({ s with ingress := s.ingress.set p fs } : State).drained = true := by
  rw [State.drained_iff] at h ⊢
  intro q
  by_cases e : q = p
  · subst e
    simp [State.takes, hb]
  · have := h q
    unfold State.takes at this ⊢
    rwa [PerPort.get_set_other _ _ e]

theorem exec_frameArrival_linkUp {s : State} (p : Port) (f : Frame) (hl : s.opState.linkUp = true) :
    exec (.frameArrival p f) s = .next (s.arrive p f).settle := by
  simp only [exec, execFrameArrival]
  cases h : s.opState <;> first | rfl | (rw [h] at hl; cases hl)

theorem arrive_eq (s : State) (p : Port) (f : Frame) : s.arrive p f =
    if (s.ingress.get p).length < 16 then { s.count p .received with ingress := s.ingress.set p (s.ingress.get p ++ [f]) }
    else (s.count p .received).count p .ingressFull := by
  unfold State.arrive State.ingressRoom
  simp only [decide_eq_true_eq]
  rfl

theorem exec_frameArrival_busy {s : State} {p : Port} (hd : s.drained = true) (hl : s.opState.linkUp = true)
    (hb : s.stages.get p ≠ .idle) (f : Frame) : exec (.frameArrival p f) s = .next (s.arrive p f).examineErase := by
  have hx : (s.arrive p f).drained = true := by
    rw [arrive_eq]
    split
    · exact drained_ingress_busy (s := s.count p .received) (drained_count hd _ _) hb _
    · exact drained_count (drained_count hd _ _) _ _
  rw [exec_frameArrival_linkUp p f hl, settle_drained hx]

/-- An idle stage of a HELD unit carries the frame across at once (R140). -/
theorem exec_frameArrival_held {s : State} {p : Port} (hd : s.drained = true) (ho : s.opState = .held) (hi : s.stages.get p = .idle)
    (hx : s.examined = true) (f : Frame) : exec (.frameArrival p f) s = .next (s.carryAcross p f).examineErase := by
  have hr : s.ingressRoom p = true := by
    unfold State.ingressRoom
    rw [ingress_of_drained hd hi]
    decide
  have hf : (s.appendIngress p f).examineReasons = s.appendIngress p f :=
    examineReasons_of_not_fresh (show State.reasonFresh _ = false from (not_fresh_of_examined hx :))
  have hc : (s.carryAcross p f).drained = true := by
    unfold State.carryAcross
    split
    · exact drained_carryTraffic hd _ _
    · exact hd
  have hset : (s.appendIngress p f).settle = (s.carryAcross p f).examineErase := by
    rw [settle_takes (nextTaker_appended hd hi f), hf, takeHead_appended hd hi f, ho]
    exact settle_drained hc
  simp only [exec, execFrameArrival, ho]
  refine congrArg Host.Outcome.next ?_
  unfold State.arriveHeld
  cases p with
  | tap => exact settle_drained hd
  | _ =>
    simp only [oppositeLine, hr, if_true]
    exact hset

theorem drained_repeatFrame {s : State} (hd : s.drained = true) (p : Port) (f : Frame) : (s.repeatFrame p f).drained = true := by
  unfold State.repeatFrame
  split
  · exact drained_count (drained_placeTraffic hd _ _) _ _
  · exact drained_count hd _ _

/-- A frame that is no good channel-0 frame is repeated by the Bypass Path (R139). -/
theorem exec_frameArrival_repeated {s : State} {p : Port} {f : Frame} (hd : s.drained = true) (ho : s.opState = .mounting ∨ s.opState = .bypass)
    (hi : s.stages.get p = .idle) (hx : s.examined = true) (hf : ¬ (frameChannelField f = 0 ∧ checkGood f = true ∧ formatGood f = true)) :
    exec (.frameArrival p f) s = .next ((s.count p .received).repeatFrame p f).examineErase := by
  have hb : (s.count p .received).bypassFrame p f = (s.count p .received).repeatFrame p f := if_neg hf
  have hs := settle_drained (drained_repeatFrame (drained_count hd p .received) p f)
  rw [exec_frameArrival_idle hd hx (by obtain h | h := ho <;> rw [h] <;> rfl) hi]
  obtain h | h := ho
  all_goals
    rw [h]
    exact congrArg Host.Outcome.next ((congrArg State.settle hb).trans hs)

/-- Settles O36. -/
theorem arrivalsAreQueuedCarriedAcrossOrRepeated : Obligations.ArrivalsAreQueuedCarriedAcrossOrRepeated := by
  unfold Obligations.ArrivalsAreQueuedCarriedAcrossOrRepeated
  refine ⟨⟨rfl, rfl, rfl, rfl, rfl⟩, fun s p f hd => ⟨fun hl hb => ?_, fun ho hi hx => ?_, fun ho => ?_⟩, fun s p f hd ho hi hx hf => ?_⟩
  · rw [exec_frameArrival_busy hd hl hb, arrive_eq]
  · refine (exec_frameArrival_held hd ho hi hx f).trans ?_
    unfold State.carryAcross
    cases p <;> rfl
  · simp only [exec, execFrameArrival, ho]
  · refine (exec_frameArrival_repeated hd ho hi hx hf).trans ?_
    unfold State.repeatFrame
    cases p <;> rfl

/-! ## Lookups -/

theorem exec_frameArrival_running {s : State} {p : Port} (hd : s.drained = true) (ho : s.opState = .running) (hi : s.stages.get p = .idle)
    (hx : s.examined = true) (f : Frame) : exec (.frameArrival p f) s = .next ((s.count p .received).judgeFrame p f).settle := by
  rw [exec_frameArrival_idle hd hx (by rw [ho]; rfl) hi, ho]

/-- Settles O37. -/
theorem runningLooksUpWhatPassesTheTests : Obligations.RunningLooksUpWhatPassesTheTests := by
  unfold Obligations.RunningLooksUpWhatPassesTheTests
  intro s p f hd ho hi hx s1
  have h1 : s1.drained = true := drained_count hd p .received
  rw [exec_frameArrival_running hd ho hi hx, judgeFrame_eq]
  refine ⟨fun hc => ?_, fun hc hf => ?_, fun hc hf hch => ⟨fun hp => ?_, fun a hp => ?_⟩⟩
  · rw [if_pos hc, settle_drained (drained_count h1 _ _)]
  · rw [if_neg (by rw [hc]; decide), if_pos hf, settle_drained (drained_count h1 _ _)]
  · have hp' : s1.position (frameChannelField f) = none := hp
    rw [if_neg (by rw [hc]; decide), if_neg (by rw [hf]; decide), if_neg hch, hp']
    refine congrArg Host.Outcome.next (settle_drained ?_)
    dsimp only
    split
    · exact drained_count (drained_placeDelivery h1 _) _ _
    · exact drained_count h1 _ _
  · have hp' : s1.position (frameChannelField f) = some a := hp
    rw [if_neg (by rw [hc]; decide), if_neg (by rw [hf]; decide), if_neg hch, hp']
    dsimp only
    rw [settle_drained (drained_requestRead h1 _ _ _), requestRead_eq]
    rfl

end Sys2Proof.Machine
end

section
/-! PROOF. Hand-offs of channel-0 frames (R127, R139, R144, R146, R147). -/

namespace Sys2Proof.Machine

open Sys2Proof

/-! ## Dispatch -/

theorem receive_linkUp {s : State} (k : ReqKind) (o : Origin) (ps : List Byte) (hl : s.opState.linkUp = true) :
    s.receive k o.port o.tag ps = (s.dispatch ⟨o, k.code, ps⟩).settle :=
  if_pos hl

/-- Dispatch of a kind that a broadcast carries gives a reply of a read kind and nothing else. -/
theorem dispatch_read {s : State} {k : ReqKind} (o : Origin) (ps : List Byte) (h : k = .status ∨ k = .describe) :
    ∃ (st : Status) (rs : List Byte), s.dispatch ⟨o, k.code, ps⟩ = s.replyRead o k.code st rs := by
  unfold State.dispatch
  dsimp only
  split
  · exact ⟨_, _, rfl⟩
  · split
    · exact ⟨_, _, rfl⟩
    · rw [kindOf_code]
      unfold State.screenKnown
      obtain rfl | rfl := h
      all_goals
        simp only [stateChanging, Bool.false_eq_true, if_false]
        split
        · exact ⟨_, _, rfl⟩
        · exact ⟨_, _, rfl⟩

/-- A kind byte of no kind is refused at the first screen that it meets. -/
theorem dispatch_unknown {s : State} {r : Request} (h : kindOf r.kind = none) : s.dispatch r =
    s.replyRead r.origin r.kind (if s.opState = .mounting then .notRunning else if s.inProgress r.origin = true then .inProgress else .badRequest)
      [] := by
  unfold State.dispatch State.refusedMounting
  rw [h]
  by_cases hm : s.opState = .mounting
  · simp [hm]
  · by_cases hi : s.inProgress r.origin = true
    · simp [hm, hi]
    · simp [hm, hi]

theorem doSetMode_bad {s : State} {o : Origin} {ps : List Byte} (h1 : ps ≠ [1]) (h2 : ps ≠ [2]) :
    s.doSetMode o ps = s.replyStored o .setMode .badRequest [] := by
  unfold State.doSetMode
  split
  · rename_i b
    have hb : modeOf b.toNat = none := by
      rw [modeOf_eq, if_pos]
      exact ⟨fun h => h1 (by rw [(toNat_eq_iff (by decide)).1 h]; rfl), fun h => h2 (by rw [(toNat_eq_iff (by decide)).1 h]; rfl)⟩
    rw [hb]
  · rfl

/-- A SET MODE of another byte or length than its two forms is refused. -/
theorem dispatch_setMode_bad {s : State} {o : Origin} {ps : List Byte} (ha : s.admits o = true) (h1 : ps ≠ [1]) (h2 : ps ≠ [2]) :
    s.dispatch ⟨o, 0x14, ps⟩ = s.replyStored o .setMode .badRequest [] := by
  have ha' : s.admitsRead o = true ∧ (s.storedReply o).isNone = true := by
    unfold State.admits at ha
    simpa only [Bool.and_eq_true] using ha
  obtain ⟨-, hm, hi⟩ := admitsRead_iff ha'.1
  have hr : s.refusedMounting 0x14 = false := by
    unfold State.refusedMounting
    simp [hm]
  unfold State.dispatch
  rw [hr, hi]
  simp only [Bool.false_eq_true, if_false]
  rw [show kindOf (0x14 : Byte) = some .setMode from rfl]
  dsimp only
  cases hl : lengthGood .setMode ps with
  | false => exact screenKnown_badLength rfl (Option.isNone_iff_eq_none.1 ha'.2) hl
  | true =>
    unfold State.screenKnown
    rw [Option.isNone_iff_eq_none.1 ha'.2]
    simp only [stateChanging, if_true, hl, State.perform]
    exact doSetMode_bad h1 h2

/-! ## The disposition of a channel-0 frame -/

theorem broadcastAnswered_iff (b : Byte) : broadcastAnswered b = true ↔ b = 0x01 ∨ b = 0x02 := by
  have h1 : kindOf b = some .status ↔ b = 0x01 := kindOf_eq_some.trans eq_comm
  have h2 : kindOf b = some .describe ↔ b = 0x02 := kindOf_eq_some.trans eq_comm
  rw [← h1, ← h2]
  unfold broadcastAnswered
  cases kindOf b with
  | none => simp
  | some k => cases k <;> simp

theorem dispositionOf_consumedAndPassed {station : Nat} {m : ManagementFields} (h1 : m.isReply = false) (h2 : m.station = 65535)
    (h3 : m.kind = 0x01 ∨ m.kind = 0x02) : dispositionOf station m = .consumedAndPassed := by
  unfold dispositionOf
  rw [h1, if_neg Bool.false_ne_true, if_pos (show m.station = Config.broadcastStation from h2), if_pos ((broadcastAnswered_iff _).2 h3)]

theorem dispositionOf_consumed {station : Nat} {m : ManagementFields} (h1 : m.isReply = false) (h2 : m.station ≠ 65535)
    (h3 : m.station = station) : dispositionOf station m = .consumed := by
  unfold dispositionOf
  rw [h1, if_neg Bool.false_ne_true, if_neg (show ¬ m.station = Config.broadcastStation from h2), if_pos h3]

theorem dispositionOf_passed {station : Nat} {m : ManagementFields}
    (h1 : ¬ (m.isReply = false ∧ m.station = 65535 ∧ (m.kind = 0x01 ∨ m.kind = 0x02)))
    (h2 : ¬ (m.isReply = false ∧ m.station ≠ 65535 ∧ m.station = station)) : dispositionOf station m = .passed := by
  unfold dispositionOf
  cases hr : m.isReply with
  | true => rfl
  | false =>
    rw [if_neg Bool.false_ne_true]
    by_cases hb : m.station = 65535
    · have hk : ¬ broadcastAnswered m.kind = true := fun h => h1 ⟨hr, hb, (broadcastAnswered_iff _).1 h⟩
      rw [if_pos (show m.station = Config.broadcastStation from hb), if_neg hk]
    · rw [if_neg (show ¬ m.station = Config.broadcastStation from hb), if_neg fun h => h2 ⟨hr, hb, h⟩]

theorem handOff_eq (s : State) (p : Port) (f : Frame) (c : Counter) : s.handOff p f c =
    let m := managementFields (framePayload f)
    let r : Request := ⟨⟨p, m.tag⟩, m.kind, m.params⟩
    if m.isReply = false ∧ m.station = 65535 ∧ (m.kind = 0x01 ∨ m.kind = 0x02) then ((s.count p .mgmtConsumed).dispatch r).passOn p f
    else if m.isReply = false ∧ m.station ≠ 65535 ∧ m.station = s.config.values.station then (s.count p .mgmtConsumed).dispatch r
    else s.passManagement p f c := by
  unfold State.handOff
  dsimp only
  by_cases h1 : (managementFields (framePayload f)).isReply = false ∧ (managementFields (framePayload f)).station = 65535 ∧
      ((managementFields (framePayload f)).kind = 0x01 ∨ (managementFields (framePayload f)).kind = 0x02)
  · rw [if_pos h1, dispositionOf_consumedAndPassed h1.1 h1.2.1 h1.2.2]
  · rw [if_neg h1]
    by_cases h2 : (managementFields (framePayload f)).isReply = false ∧ (managementFields (framePayload f)).station ≠ 65535 ∧
        (managementFields (framePayload f)).station = s.config.values.station
    · rw [if_pos h2, dispositionOf_consumed h2.1 h2.2.1 h2.2.2]
    · rw [if_neg h2, dispositionOf_passed h1 h2]

/-- A good channel-0 frame at an idle stage is handed over; a line frame that is passed counts under the operating state. -/
theorem exec_frameArrival_handOff {s : State} {p : Port} {f : Frame} (hd : s.drained = true) (hl : s.opState.linkUp = true)
    (hi : s.stages.get p = .idle) (hx : s.examined = true) (h0 : frameChannelField f = 0) (hc : checkGood f = true)
    (hf : formatGood f = true) :
    exec (.frameArrival p f) s =
      .next ((s.count p .received).handOff p f (if s.opState = .running then .mgmtPassed else .bypassed)).settle := by
  have hb : ∀ x : State, x.bypassFrame p f = x.handOff p f .bypassed := fun x => if_pos ⟨h0, hc, hf⟩
  have hj : ∀ x : State, x.judgeFrame p f = x.handOff p f .mgmtPassed := fun x => by
    rw [judgeFrame_eq, if_neg (by rw [hc]; decide), if_neg (by rw [hf]; decide), if_pos h0]
  rw [exec_frameArrival_idle hd hx hl hi]
  cases ho : s.opState with
  | running => rw [hj] <;> rfl
  | mounting => rw [hb] <;> rfl
  | bypass => rw [hb] <;> rfl
  | _ =>
    rw [ho] at hl
    cases hl

theorem drained_passManagement {s : State} (hd : s.drained = true) (p : Port) (f : Frame) (c : Counter) :
    (s.passManagement p f c).drained = true := by
  unfold State.passManagement
  split
  · exact drained_count (drained_placeTraffic hd _ _) _ _
  · exact drained_count hd _ _

theorem drained_passOn {s : State} (hd : s.drained = true) (p : Port) (f : Frame) : (s.passOn p f).drained = true := by
  unfold State.passOn
  split
  · exact drained_placeTraffic hd _ _
  · exact hd

theorem passOn_eq (s : State) (p : Port) (f : Frame) : s.passOn p f =
    match oppositeLine p with
    | some l => s.placeTraffic l f
    | none => s := by
  unfold State.passOn
  cases p <;> rfl

theorem passManagement_eq (s : State) (p : Port) (f : Frame) (c : Counter) : s.passManagement p f c =
    match oppositeLine p with
    | some l => (s.placeTraffic l f).count p c
    | none => s.count p .tapIdle := by
  unfold State.passManagement
  cases p <;> rfl

theorem handOff_consumed {s : State} {p : Port} {f : Frame} (c : Counter) (h1 : (managementFields (framePayload f)).isReply = false)
    (h2 : (managementFields (framePayload f)).station ≠ 65535)
    (h3 : (managementFields (framePayload f)).station = s.config.values.station) :
    s.handOff p f c = (s.count p .mgmtConsumed).dispatch
      ⟨⟨p, (managementFields (framePayload f)).tag⟩, (managementFields (framePayload f)).kind, (managementFields (framePayload f)).params⟩ := by
  rw [handOff_eq]
  dsimp only
  rw [if_neg fun h => h2 h.2.1, if_pos ⟨h1, h2, h3⟩]

/-- Settles O38. -/
theorem managementFramesAreConsumedOrPassed : Obligations.ManagementFramesAreConsumedOrPassed := by
  unfold Obligations.ManagementFramesAreConsumedOrPassed
  refine ⟨fun c k o ps s hc hl => ?_, fun s p f c => ?_, fun s p f hd hl hi hx h0 hck hf => ?_⟩
  · rw [exec_of_requestOf hc, receive_linkUp k o ps hl]
  · intro m s2 r
    rw [handOff_eq]
    simp only [passOn_eq, passManagement_eq]
    cases p <;> rfl
  · intro m s1 s2
    have h1 : s1.drained = true := drained_count hd _ _
    have h2 : s2.drained = true := drained_count h1 _ _
    have he := exec_frameArrival_handOff hd hl hi hx h0 hck hf
    have consumed : m.isReply = false → m.station ≠ 65535 → m.station = s.config.values.station →
        exec (.frameArrival p f) s = .next (s2.dispatch ⟨⟨p, m.tag⟩, m.kind, m.params⟩).settle := by
      intro a b c
      rw [he, handOff_consumed (s := s1) _ a b c]
    refine ⟨fun hp => ?_, fun c k a b c' hk hr => ?_, fun a b c hk => ?_, fun a b c hk ha n1 n2 => ?_, fun a b hk => ?_⟩
    · have hn1 : ¬ (m.isReply = false ∧ m.station = 65535 ∧ (m.kind = 0x01 ∨ m.kind = 0x02)) := by
        rintro ⟨a, b, c⟩
        obtain h | h | h := hp
        · rw [a] at h
          cases h
        · exact h.1 b
        · exact c.elim h.2.1 h.2.2
      have hn2 : ¬ (m.isReply = false ∧ m.station ≠ 65535 ∧ m.station = s1.config.values.station) := by
        rintro ⟨a, b, c⟩
        obtain h | h | h := hp
        · rw [a] at h
          cases h
        · exact h.2 c
        · exact b h.1
      rw [he, handOff_eq]
      dsimp only
      rw [if_neg hn1, if_neg hn2, settle_drained (drained_passManagement h1 _ _ _), passManagement_eq] <;>
        cases p <;> rfl
    · rw [consumed a b c', exec_of_requestOf hr, receive_linkUp (s := s2) k ⟨p, m.tag⟩ m.params hl, hk]
    · rw [consumed a b c, dispatch_unknown hk, settle_drained (drained_replyRead h2 _ _ _ _)]
      rfl
    · rw [consumed a b c, hk, dispatch_setMode_bad (s := s2) ha n1 n2, settle_replyStored h2]
    · have hread : ∃ k : ReqKind, (k = .status ∨ k = .describe) ∧ m.kind = k.code := by
        obtain hk | hk := hk
        · exact ⟨.status, .inl rfl, hk⟩
        · exact ⟨.describe, .inr rfl, hk⟩
      obtain ⟨k, hk1, hk2⟩ := hread
      obtain ⟨st, rs, hs⟩ := dispatch_read (s := s2) ⟨p, m.tag⟩ m.params hk1
      have hdr : (s2.dispatch ⟨⟨p, m.tag⟩, m.kind, m.params⟩).drained = true := by
        rw [hk2, hs]
        exact drained_replyRead h2 _ _ _ _
      rw [he, handOff_eq]
      dsimp only
      rw [if_pos ⟨a, b, hk⟩, settle_drained (drained_passOn hdr _ _), passOn_eq] <;>
        cases p <;> rfl

end Sys2Proof.Machine
end

section
/-! PROOF. The completion of a lookup stage's read (R30, R92, R129 to R134, R141). -/

namespace Sys2Proof.Machine

open Sys2Proof

theorem State.readInHand_eq_some {s : State} {p : Port} {h : InHand} {x : ReadTarget} {counted : Bool} (hs : s.stages.get p = .reading h)
    (hb : (s.bank (bankOf h.addr.seg)).inFlight = some ⟨x, .lookup p, counted⟩) : s.readInHand p = some h := by
  unfold State.readInHand
  rw [hs]
  dsimp only
  rw [hb]
  exact if_pos rfl

theorem exec_lookupReadCompletion {s : State} {p : Port} {h : InHand} {x : ReadTarget} {counted : Bool}
    (hs : s.stages.get p = .reading h) (hb : (s.bank (bankOf h.addr.seg)).inFlight = some ⟨x, .lookup p, counted⟩) (lost : Bool) :
    exec (.lookupReadCompletion p lost) s =
      .next (((s.setStage p .idle).readDone (bankOf h.addr.seg)).frameRead p h (s.readSlotResult h.addr lost)).settle := by
  simp only [exec, execLookupReadCompletion, State.readInHand_eq_some hs hb]

theorem frameRead_found {s : State} {p : Port} {h : InHand} {res : ReadResult} {r : RouteFields}
    (hr : routeCheck res (frameChannelField h.frame) = some r) :
    s.frameRead p h res = if r.accept.has p = false then s.count p .notAccepted else s.applyAction p r h.frame h.leftRunning := by
  unfold State.frameRead
  rw [hr]
  dsimp only
  cases r.accept.has p <;> rfl

/-- Settles O39. -/
theorem lookupReadCarriesOutTheRoute : Obligations.LookupReadCarriesOutTheRoute := by
  unfold Obligations.LookupReadCarriesOutTheRoute
  refine ⟨fun a => ⟨rfl, rfl, rfl⟩, fun s p lost counted h x r hs hb hr => ?_⟩
  intro s1 f c
  rw [exec_lookupReadCompletion hs hb, frameRead_found hr]
  refine congrArg (fun t : State => Host.Outcome.next t.settle) (ite_congr_of_iff Iff.rfl rfl ?_)
  have hc : c = copyOf r f := rfl
  rw [hc]
  unfold State.applyAction State.passCopy passLine State.deliverCopy State.repeatFrame
  cases r.action with
  | pass => cases p <;> rfl
  | deliver => cases p <;> rfl
  | passAndDeliver => cases p <;> rfl
  | discard => cases p <;> rfl

/-! ## A failed check -/

theorem routeCheck_eq_some {x : ReadResult} {ch : Nat} {f : RouteFields} : routeCheck x ch = some f ↔
    ∃ (st : RecState) (n : Nat), x = .record ⟨st, n, .entry ⟨ch, .route f⟩⟩ ∧ (st = .pending ∨ st = .live) := by
  have live_iff : ∀ st : RecState, st ≠ .retired ↔ st = .pending ∨ st = .live := by
    intro st
    cases st <;> decide
  constructor
  · intro h
    unfold routeCheck at h
    split at h
    · rename_i st n c f'
      rw [Option.ite_none_right_eq_some] at h
      obtain ⟨⟨rfl, hst⟩, e⟩ := h
      cases e
      exact ⟨st, n, rfl, (live_iff st).1 hst⟩
    · cases h
  · rintro ⟨st, n, rfl, hst⟩
    exact if_pos ⟨rfl, (live_iff st).2 hst⟩

theorem frameRead_failed {s : State} {p : Port} {h : InHand} {res : ReadResult}
    (hr : routeCheck res (frameChannelField h.frame) = none) :
    s.frameRead p h res =
      if h.leftRunning = true then s.repeatFrame p h.frame else s.steer p { h with failed := h.failed + 1 } := by
  unfold State.frameRead
  rw [hr]

theorem steer_eq (s : State) (p : Port) (h : InHand) : s.steer p { h with failed := h.failed + 1 } =
    if 2 ≤ h.failed then s.count p .stale
    else
      match s.position (frameChannelField h.frame) with
      | none => s.noRoute p h.frame
      | some a => if a = h.addr then s.count p .stale else s.requestRead p { h with failed := h.failed + 1 } a :=
  ite_congr_of_iff (show 3 ≤ h.failed + 1 ↔ 2 ≤ h.failed by omega) rfl rfl

/-- Settles O40. -/
theorem lookupReadSteersAFailedCheck : Obligations.LookupReadSteersAFailedCheck := by
  unfold Obligations.LookupReadSteersAFailedCheck
  refine ⟨fun x ch f => routeCheck_eq_some, requestRead_eq, fun s p lost counted h x hs hb hr => ?_⟩
  intro s1
  have hsame : SameOutside (s.setStage p .idle) s1 := sameOutside_readDone _ _
  have hpos : s1.position = s.position := congrArg (tableGet none) hsame.index
  have hcfg : s1.config = s.config := hsame.config
  rw [exec_lookupReadCompletion hs hb, frameRead_failed hr, steer_eq]
  refine congrArg (fun t : State => Host.Outcome.next t.settle) (ite_congr_of_iff Iff.rfl ?_ (ite_congr_of_iff Iff.rfl rfl ?_))
  · cases p <;> rfl
  · rw [show State.position _ _ = _ from congrFun hpos _]
    cases s.position (frameChannelField h.frame) with
    | none => exact (noRoute_eq _ _ _).trans (by rw [hcfg])
    | some a => rfl

end Sys2Proof.Machine
end

section
/-! PROOF. READ SLOT and its completion, and HOLD_TIMER_EXPIRY (R3, R4, R20, R94, R101, R103, R104, R132). -/

namespace Sys2Proof.Machine

open Sys2Proof

/-! ## What a read reports -/

theorem issueInRange_iff (n : Nat) : issueInRange n = true ↔ 1 ≤ n ∧ n ≤ 4294967294 := by
  exact (Bool.and_eq_true _ _).to_iff.trans (and_congr decide_eq_true_iff decide_eq_true_iff)

theorem channelInRange_iff (n : Nat) : channelInRange n = true ↔ 1 ≤ n ∧ n ≤ 4095 := by
  exact (Bool.and_eq_true _ _).to_iff.trans (and_congr decide_eq_true_iff decide_eq_true_iff)

theorem RouteFields.allowed_iff (f : RouteFields) : f.allowed = true ↔
    (f.accept.east = true ∨ f.accept.west = true ∨ f.accept.tap = true) ∧ (∀ n : Nat, f.outChannel = some n → 1 ≤ n ∧ n ≤ 4095) ∧
      (f.tapSide ≠ none ↔ f.accept.tap = true ∧ (f.action = .pass ∨ f.action = .passAndDeliver)) := by
  have out_iff : (match f.outChannel with | none => true | some n => channelInRange n) = true ↔
      ∀ n : Nat, f.outChannel = some n → 1 ≤ n ∧ n ≤ 4095 := by
    cases f.outChannel with
    | none => simp
    | some n => simp [channelInRange_iff]
  have side_iff : (f.tapSide.isSome == needsTapSide f.accept f.action) = true ↔
      (f.tapSide ≠ none ↔ f.accept.tap = true ∧ (f.action = .pass ∨ f.action = .passAndDeliver)) := by
    rw [beq_iff_eq, Bool.eq_iff_iff, needsTapSide_iff, Option.isSome_iff_ne_none]
  rw [← out_iff, ← side_iff]
  unfold RouteFields.allowed
  simp only [Bool.and_eq_true, Bool.or_eq_true, and_assoc, or_assoc] <;> rfl

theorem SlotRecord.allowed_seal (st : RecState) (i n : Nat) : SlotRecord.allowed ⟨st, i, .seal n⟩ = true ↔
    1 ≤ i ∧ i ≤ 4294967294 ∧ st = .live ∧ 1 ≤ n ∧ n ≤ 16 := by
  have hn : decide (n ≤ Config.stagingCapacity) = true ↔ n ≤ 16 := decide_eq_true_iff
  simp only [SlotRecord.allowed, Bool.and_eq_true, issueInRange_iff, decide_eq_true_eq, and_assoc, hn]

theorem SlotRecord.allowed_withdraw (st : RecState) (i ch : Nat) : SlotRecord.allowed ⟨st, i, .entry ⟨ch, .withdraw⟩⟩ = true ↔
    1 ≤ i ∧ i ≤ 4294967294 ∧ 1 ≤ ch ∧ ch ≤ 4095 := by
  simp only [SlotRecord.allowed, Bool.and_eq_true, issueInRange_iff, channelInRange_iff, and_assoc, and_true]

theorem SlotRecord.allowed_route (st : RecState) (i ch : Nat) (f : RouteFields) :
    SlotRecord.allowed ⟨st, i, .entry ⟨ch, .route f⟩⟩ = true ↔
      1 ≤ i ∧ i ≤ 4294967294 ∧ 1 ≤ ch ∧ ch ≤ 4095 ∧ f.allowed = true := by
  simp only [SlotRecord.allowed, Bool.and_eq_true, issueInRange_iff, channelInRange_iff, and_assoc]

theorem readSlotResult_suspended {s : State} {a : SlotAddr} (h : (s.bank (bankOf a.seg)).suspended = some a.seg) (lost : Bool) :
    s.readSlotResult a lost = .unreadable :=
  if_pos h

theorem readSlotResult_cells {s : State} {a : SlotAddr} (h : (s.bank (bankOf a.seg)).suspended ≠ some a.seg) (lost : Bool) :
    s.readSlotResult a lost = readCells (s.store.slot a) lost :=
  if_neg h

theorem readCells_written (r : SlotRecord) : readCells (.written r) false = if r.allowed = true then .record r else .marginFail :=
  rfl

theorem readCells_marginFail {v : Slot} {lost : Bool} (h : lost = true ∨ v = .indeterminate) : readCells v lost = .marginFail := by
  obtain rfl | rfl := h
  · rfl
  · cases lost <;> rfl

/-! ## READ SLOT -/

theorem BankUnit.readSlotStarts_iff (u : BankUnit) :
    u.readSlotStarts = true ↔ (u.state = .free ∨ u.state = .eraseSuspended) ∧ u.queue = [] ∧ u.inFlight = none := by
  simp only [BankUnit.readSlotStarts, Bool.and_eq_true, BankState.readable_iff, List.isEmpty_iff, Option.isNone_iff_eq_none, and_assoc]

theorem doReadSlot_two (s : State) (o : Origin) (g n : Byte) : s.doReadSlot o [g, n] =
    if g.toNat < 32 ∧ n.toNat < 64 then
      if ((s.bank (bankOf g.toNat)).state = .free ∨ (s.bank (bankOf g.toNat)).state = .eraseSuspended) ∧
          (s.bank (bankOf g.toNat)).queue = [] ∧ (s.bank (bankOf g.toNat)).inFlight = none then
        s.setBank (bankOf g.toNat) { s.bank (bankOf g.toNat) with inFlight := some ⟨.slot ⟨g.toNat, n.toNat⟩, .readSlot o, false⟩ }
      else s.replyRead o 0x03 .bankBusy []
    else s.replyRead o 0x03 .badRequest [] :=
  ite_congr_of_iff Iff.rfl (ite_congr_of_iff (BankUnit.readSlotStarts_iff _) rfl rfl) rfl

theorem drained_doReadSlot {s : State} (hd : s.drained = true) (o : Origin) (g n : Byte) : (s.doReadSlot o [g, n]).drained = true := by
  rw [doReadSlot_two]
  split
  · split
    · exact drained_setBank hd _ _
    · exact drained_replyRead hd _ _ _ _
  · exact drained_replyRead hd _ _ _ _

theorem exec_readSlot_admitted {s : State} {p : Port} {tag : Byte} (hd : s.drained = true) (ha : s.admitsRead ⟨p, tag⟩ = true)
    (g n : Byte) : exec (.readSlot p tag [g, n]) s = .next (s.doReadSlot ⟨p, tag⟩ [g, n]).examineErase := by
  have hk : s.screenKnown .readSlot ⟨p, tag⟩ [g, n] = s.doReadSlot ⟨p, tag⟩ [g, n] := screenKnown_read rfl rfl
  rw [exec_of_requestOf (k := .readSlot) (o := ⟨p, tag⟩) (ps := [g, n]) rfl, receive_read ha, hk,
    settle_drained (drained_doReadSlot hd _ _ _)]

/-! ## Its completion, and the hold timer -/

theorem exec_readSlotCompletion {s : State} {b : Bank} {a : SlotAddr} {o : Origin} {counted : Bool}
    (h : (s.bank b).inFlight = some ⟨.slot a, .readSlot o, counted⟩) (lost : Bool) : exec (.readSlotCompletion b lost) s =
      .next ((s.readDone b).replyRead o 0x03 .done
        (byte1 a.seg ++ byte1 a.slot ++ readResultBytes (s.readSlotResult a lost))).settle := by
  simp only [exec, execReadSlotCompletion, h]
  rfl

theorem State.heldInQueue_eq_some {s : State} {p : Port} {h : InHand} {q : QueuedRead} (hs : s.stages.get p = .waitBank h)
    (hq : q ∈ (s.bank (bankOf h.addr.seg)).queue) (hp : q.stage = p) : s.heldInQueue p = some h := by
  unfold State.heldInQueue
  rw [hs]
  exact if_pos (List.any_eq_true.2 ⟨q, hq, decide_eq_true hp⟩)

theorem exec_holdTimerExpiry {s : State} {p : Port} {h : InHand} {q : QueuedRead} (hs : s.stages.get p = .waitBank h)
    (hq : q ∈ (s.bank (bankOf h.addr.seg)).queue) (hp : q.stage = p) : exec (.holdTimerExpiry p) s =
      .next (((s.setStage p .idle).withdrawRead p (bankOf h.addr.seg)).count p .holdExpired).settle := by
  simp only [exec, execHoldTimerExpiry, State.heldInQueue_eq_some hs hq hp]

theorem withdrawRead_found {s : State} {p : Port} {b : Bank} {q : QueuedRead}
    (h : (s.bank b).queue.find? (fun x => x.stage = p) = some q) : s.withdrawRead p b =
      (if q.counted = true then
        (s.setBank b { s.bank b with queue := (s.bank b).queue.filter (fun x => x.stage ≠ p) }).markerDown b
      else s.setBank b { s.bank b with queue := (s.bank b).queue.filter (fun x => x.stage ≠ p) }).startHead b := by
  unfold State.withdrawRead
  rw [h]

/-- Settles O41. -/
theorem readSlotsStartAndCompleteAndHoldTimersExpire : Obligations.ReadSlotsStartAndCompleteAndHoldTimersExpire := by
  unfold Obligations.ReadSlotsStartAndCompleteAndHoldTimersExpire
  refine ⟨?_, fun s p tag g n hd ha => ?_, fun s b a o counted lost hd hb => ?_,
    fun s p h q hs hq hp => exec_holdTimerExpiry hs hq hp, fun s p b q hq hc => ?_⟩
  · intro allowed s a lost
    have allowed_iff : ∀ r : SlotRecord, allowed r ↔ r.allowed = true := by
      rintro ⟨st, i, ⟨ch, f | _⟩ | n⟩
      · rw [SlotRecord.allowed_route, RouteFields.allowed_iff]
      · exact (SlotRecord.allowed_withdraw st i ch).symm
      · exact (SlotRecord.allowed_seal st i n).symm
    refine ⟨fun h => readSlotResult_suspended h lost, fun h => ?_⟩
    rw [readSlotResult_cells h]
    refine ⟨readCells_marginFail, ?_⟩
    rintro rfl
    refine ⟨fun hv => hv ▸ rfl, fun hv => hv ▸ rfl, fun r hv => ?_⟩
    rw [hv, readCells_written, allowed_iff]
    exact ⟨fun h => if_pos h, fun h => if_neg h⟩
  · intro b
    rw [exec_readSlot_admitted hd ha, doReadSlot_two]
  · rw [exec_readSlotCompletion hb, settle_drained (drained_replyRead (drained_banks.readDone b hd) _ _ _ _)]
  · rw [withdrawRead_found hq, hc]
    rfl

end Sys2Proof.Machine
end

section
/-! PROOF. The transmission completions, and the end of a RESTART (R118, R136, R137, R182). -/

namespace Sys2Proof.Machine

open Sys2Proof

/-- A free line transmitter goes on with the oldest reply, else with the oldest traffic frame (R136). -/
def State.nextOnLine (s : State) (l : Line) : State :=
  match s.replies.get l, s.traffic.get l with
  | r :: rs, _ => { s with lineTx := s.lineTx.set l (some r), replies := s.replies.set l rs }
  | [], f :: fs => { s with lineTx := s.lineTx.set l (some ⟨f, false⟩), traffic := s.traffic.set l fs }
  | [], [] => { s with lineTx := s.lineTx.set l none }

/-- A free tap transmitter goes on with the oldest frame of its FIFO (R137). -/
def State.nextOnTap (s : State) : State :=
  match s.delivery with
  | d :: ds => { s with tapTx := some d, delivery := ds }
  | [] => { s with tapTx := none }

theorem kickLine_freed (s : State) (l : Line) : ({ s with lineTx := s.lineTx.set l none } : State).kickLine l = s.nextOnLine l := by
  have hfree : ({ s with lineTx := s.lineTx.set l none } : State).lineTx.get l = none := PerLine.get_set_same ..
  unfold State.nextOnLine
  cases hr : s.replies.get l with
  | cons r rs =>
    refine (kickLine_reply hfree hr).trans ?_
    rw [PerLine.set_set]
  | nil =>
    cases ht : s.traffic.get l with
    | cons f fs =>
      refine (kickLine_traffic hfree hr ht).trans ?_
      rw [PerLine.set_set]
    | nil =>
      unfold State.kickLine
      rw [hfree]
      dsimp only
      rw [hr, ht]

theorem kickTap_freed (s : State) : ({ s with tapTx := none } : State).kickTap = s.nextOnTap := by
  unfold State.nextOnTap State.kickTap
  cases s.delivery <;> rfl

theorem exec_lineTransmissionCompletion {s : State} {l : Line} {o : Outgoing} (h : s.lineTx.get l = some o) :
    exec (.lineTransmissionCompletion l) s = .next ((s.nextOnLine l).sent o) := by
  simp only [exec, execLineTransmissionCompletion, h, kickLine_freed]

theorem exec_tapTransmissionCompletion {s : State} {o : Outgoing} (h : s.tapTx = some o) :
    exec .tapTransmissionCompletion s = .next (s.nextOnTap.sent o) := by
  simp only [exec, execTapTransmissionCompletion, h, kickTap_freed]

/-! ## What a transmitter that goes on leaves alone -/

/-- Two states that differ at most in the egress FIFOs and transmitters. -/
def SameButEgress (s t : State) : Prop :=
  t = { s with traffic := t.traffic, replies := t.replies, lineTx := t.lineTx, delivery := t.delivery, tapTx := t.tapTx }

theorem SameButEgress.op {s t : State} (h : SameButEgress s t) : t.op = s.op := by
  rw [h]

theorem SameButEgress.cutShort {s t : State} (h : SameButEgress s t) : t.cutShort = s.cutShort := by
  rw [h]
  rfl

theorem SameButEgress.resetAsserted {s t : State} (h : SameButEgress s t) : t.resetAsserted = s.resetAsserted := by
  rw [h]

theorem SameButEgress.guardRelease {s t : State} (h : SameButEgress s t) : t.guardRelease = s.guardRelease := by
  rw [h]

theorem sameButEgress_nextOnLine (s : State) (l : Line) : SameButEgress s (s.nextOnLine l) := by
  unfold State.nextOnLine
  cases s.replies.get l with
  | cons r rs => rfl
  | nil => cases s.traffic.get l <;> rfl

theorem sameButEgress_nextOnTap (s : State) : SameButEgress s s.nextOnTap := by
  unfold State.nextOnTap
  cases s.delivery <;> rfl

/-! ## The end of a RESTART -/

theorem sent_noRestart {s : State} {o : Outgoing} (h : o.awaited = false ∨ ∀ r, s.op ≠ .restart r) : s.sent o = s := by
  unfold State.sent
  split
  · rename_i ha
    have hop := h.resolve_left (by rw [ha]; decide)
    unfold State.awaitedSent
    split
    · rename_i r hr
      exact absurd hr (hop r)
    · rfl
  · rfl

theorem sent_lastAwaited {s : State} {r : RestartRec} {f : Frame} (h : s.op = .restart r) (hn : r.awaiting ≤ 1) :
    s.sent ⟨f, true⟩ = s.internalReset := by
  have he : s.sent ⟨f, true⟩ = s.awaitedSent := rfl
  rw [he]
  unfold State.awaitedSent
  rw [h]
  exact if_pos hn

theorem sent_awaited {s : State} {r : RestartRec} {f : Frame} (h : s.op = .restart r) (hn : 2 ≤ r.awaiting) :
    s.sent ⟨f, true⟩ = { s with op := .restart { r with awaiting := r.awaiting - 1 } } := by
  have he : s.sent ⟨f, true⟩ = s.awaitedSent := rfl
  rw [he]
  unfold State.awaitedSent
  rw [h]
  exact if_neg (by omega)

theorem exec_restartDrainExpiry {s : State} {r : RestartRec} (h : s.op = .restart r) :
    exec .restartDrainExpiry s = .next s.internalReset := by
  simp only [exec, execRestartDrainExpiry, h]

/-- The internal reset of a state that differs from another in its egress begins the mount from the other's store (R182). -/
theorem internalReset_spec {s t : State} (h : SameButEgress s t) : t.internalReset.MountBegun ∧ t.internalReset.store = s.cutShort ∧
    t.internalReset.resetAsserted = s.resetAsserted ∧ t.internalReset.guardRelease = s.guardRelease :=
  ⟨mountBegun_volatileReset t, h.cutShort, h.resetAsserted, h.guardRelease⟩

/-- Settles O42. -/
theorem transmissionsGoOnAndEndARestart : Obligations.TransmissionsGoOnAndEndARestart := by
  unfold Obligations.TransmissionsGoOnAndEndARestart
  intro nextOnLine nextOnTap
  refine ⟨fun s l o ht ho => ?_, fun s o ht ho => ?_,
    fun s r h => ⟨_, exec_restartDrainExpiry h, internalReset_spec (rfl : SameButEgress s s)⟩,
    fun s r l f h ht => ⟨fun hn => ?_, fun hn => ?_⟩, fun s r f h ht => ⟨fun hn => ?_, fun hn => ?_⟩⟩
  · have he := sameButEgress_nextOnLine s l
    rw [exec_lineTransmissionCompletion ht, sent_noRestart (ho.imp id fun h => he.op.symm ▸ h)]
    rfl
  · have he := sameButEgress_nextOnTap s
    rw [exec_tapTransmissionCompletion ht, sent_noRestart (ho.imp id fun h => he.op.symm ▸ h)]
    rfl
  · have he := sameButEgress_nextOnLine s l
    refine ⟨_, ?_, internalReset_spec he⟩
    rw [exec_lineTransmissionCompletion ht, sent_lastAwaited (he.op.trans h) hn]
  · have he := sameButEgress_nextOnLine s l
    rw [exec_lineTransmissionCompletion ht, sent_awaited (he.op.trans h) hn]
    rfl
  · have he := sameButEgress_nextOnTap s
    refine ⟨_, ?_, internalReset_spec he⟩
    rw [exec_tapTransmissionCompletion ht, sent_lastAwaited (he.op.trans h) hn]
  · have he := sameButEgress_nextOnTap s
    rw [exec_tapTransmissionCompletion ht, sent_awaited (he.op.trans h) hn]
    rfl

end Sys2Proof.Machine
end

section
/-! PROOF. The claims on a bank, their grants, and the reads that a bank serves (R91 to R102, R200). -/

namespace Sys2Proof.Machine

open Sys2Proof

/-! ## Grants -/

/-- The state of a bank that no work occupies (R91, R97). -/
def BankUnit.atRest (u : BankUnit) : BankState :=
  if u.suspended = none then .free else .eraseSuspended

theorem BankUnit.restState_eq (u : BankUnit) : u.restState = u.atRest := by
  unfold BankUnit.restState BankUnit.atRest
  cases u.suspended <;> rfl

/-- A claim granted on a bank, `u` being what the bank else holds then (R96, R200). -/
def State.granted (s : State) (b : Bank) (u : BankUnit) (c : Claim) : State :=
  match c with
  | .program p => { s.setBank b { u with state := .programming, claim := none } with program := some p }
  | .erase g =>
    if (s.bank (bankOf g)).queue ≠ [] ∨ s.urgentHead = true then
      (s.setBank b { u with state := .suspendWait, claim := none }).mapErase (fun e => { e with step := .waiting, runTimer := true })
    else
      (s.setBank b { u with state := .eraseRunning, claim := none }).mapErase (fun e => { e with step := .running, runTimer := true })
  | .resume _ =>
    (s.setBank b { u with state := .eraseRunning, claim := none, suspended := none }).mapErase
      (fun e => { e with step := .running, runTimer := true })
  | .read x => s.setBank b { u with state := u.atRest, claim := none, inFlight := some ⟨x, .engine, false⟩ }

theorem grant_eq (s : State) (b : Bank) (c : Claim) : s.grant b c = s.granted b (s.bank b) c := by
  cases c with
  | program p => rfl
  | resume g => rfl
  | read x =>
    unfold State.grant State.granted
    dsimp only
    rw [BankUnit.restState_eq]
  | erase g =>
    have hr : s.suspensionReason g = true ↔ (s.bank (bankOf g)).queue ≠ [] ∨ s.urgentHead = true := suspensionReason_iff s g
    unfold State.grant State.granted
    dsimp only
    by_cases h : s.suspensionReason g = true
    · rw [if_pos (hr.1 h)]
      simp only [h, if_true]
    · rw [if_neg (mt hr.2 h)]
      simp only [h, Bool.false_eq_true, if_false]

/-- A grant over what a bank is set to looks at the same queues when the bank's queue is empty or not as before. -/
theorem granted_setBank {s : State} {b : Bank} {v : BankUnit} (hq : v.queue = [] ↔ (s.bank b).queue = []) (u : BankUnit) (c : Claim) :
    (s.setBank b v).granted b u c = s.granted b u c := by
  cases c with
  | program p => exact congrArg (fun x : State => { x with program := some p }) (State.setBank_setBank ..)
  | resume g =>
    unfold State.granted
    dsimp only
    rw [State.setBank_setBank]
  | read x => exact State.setBank_setBank ..
  | erase g =>
    have hb : ((s.setBank b v).bank (bankOf g)).queue = [] ↔ (s.bank (bankOf g)).queue = [] := by
      rw [State.bank_setBank]
      split
      · rename_i h
        rw [h, hq]
      · rfl
    refine ite_congr_of_iff (or_congr (not_congr hb) Iff.rfl) ?_ ?_
    · rw [State.setBank_setBank]
    · rw [State.setBank_setBank]

theorem grant_setBank {s : State} {b : Bank} {u : BankUnit} (hq : u.queue = [] ↔ (s.bank b).queue = []) (c : Claim) :
    (s.setBank b u).grant b c = s.granted b u c := by
  rw [grant_eq, State.bank_setBank_same, granted_setBank hq]

/-- The claim and the marker before a grant leave no trace but the marker set. -/
theorem granted_claim (s : State) (b : Bank) (u : BankUnit) (x : Option Claim) (c : Claim) :
    s.granted b { u with claim := x } c = s.granted b u c := by
  cases c <;> rfl

theorem mapErase_of_noErase {s : State} (f : EraseRec → EraseRec) (h : s.noErase) :
    s.mapErase f = { s with suspended := s.suspended.map f } := by
  unfold State.mapErase
  split
  · rename_i e he
    exact absurd he (h e)
  · rfl

/-! ## The head of the queue -/

theorem startHead_idle {s : State} {b : Bank} (h : (s.bank b).inFlight ≠ none ∨ (s.bank b).queue = []) : s.startHead b = s := by
  unfold State.startHead
  split
  · rename_i hi hq
    obtain h | h := h
    · exact absurd hi h
    · rw [h] at hq
      cases hq
  · rfl

theorem startHead_starts {s : State} {b : Bank} {q : QueuedRead} {qs : List QueuedRead} {h : InHand}
    (hi : (s.bank b).inFlight = none) (hq : (s.bank b).queue = q :: qs)
    (hr : ((s.bank b).state = .free ∨ (s.bank b).state = .eraseSuspended) ∨ ((s.bank b).state = .draining ∧ q.counted = true))
    (hs : s.stages.get q.stage = .waitBank h) :
    s.startHead b =
      (s.setBank b { s.bank b with inFlight := some ⟨.slot q.addr, .lookup q.stage, q.counted⟩, queue := qs }).setStage q.stage
        (.reading h) := by
  have hc : ((s.bank b).state.readable || (decide ((s.bank b).state = .draining) && q.counted)) = true := by
    simpa only [Bool.or_eq_true, BankState.readable_iff, Bool.and_eq_true, decide_eq_true_eq] using hr
  unfold State.startHead
  rw [hi, hq]
  dsimp only
  rw [hc, hs]
  rfl

theorem startHead_waits {s : State} {b : Bank} {q : QueuedRead} {qs : List QueuedRead} (hq : (s.bank b).queue = q :: qs)
    (hr : ¬ ((s.bank b).state = .free ∨ (s.bank b).state = .eraseSuspended)) (hd : (s.bank b).state ≠ .draining ∨ q.counted = false) :
    s.startHead b = s := by
  have hc : ((s.bank b).state.readable || (decide ((s.bank b).state = .draining) && q.counted)) = false := by
    rw [Bool.or_eq_false_iff]
    refine ⟨Bool.eq_false_iff.2 (mt (BankState.readable_iff _).1 hr), ?_⟩
    obtain h | h := hd
    · rw [decide_eq_false h]
      rfl
    · rw [h, Bool.and_false]
  unfold State.startHead
  split
  · rename_i q' qs' hi hq'
    rw [hq] at hq'
    cases hq'
    rw [hc]
    rfl
  · rfl

/-- A bank at work, or with a read in flight, starts no head. -/
theorem startHead_withheld {s : State} {b : Bank} (h : (s.bank b).state.withholds = true) : s.startHead b = s := by
  unfold State.startHead
  split
  · rename_i q qs hi hq
    have hc : ((s.bank b).state.readable || (decide ((s.bank b).state = .draining) && q.counted)) = false := by
      revert h
      cases (s.bank b).state <;> simp [BankState.readable, BankState.withholds]
    rw [hc]
    rfl
  · rfl

theorem bank_mapErase (s : State) (f : EraseRec → EraseRec) (b : Bank) : (s.mapErase f).bank b = s.bank b := by
  unfold State.mapErase
  split <;> rfl

theorem startHead_mapErase {s : State} {b : Bank} (h : (s.bank b).state.withholds = true) (f : EraseRec → EraseRec) :
    (s.mapErase f).startHead b = s.mapErase f :=
  startHead_withheld (by rw [bank_mapErase, h])

/-- A grant leaves the bank at work or with the engine's read in flight. -/
theorem startHead_granted (s : State) (b : Bank) (u : BankUnit) (c : Claim) : (s.granted b u c).startHead b = s.granted b u c := by
  cases c with
  | program p => exact startHead_withheld (congrArg (fun x : BankUnit => x.state.withholds) (State.bank_setBank_same s b _))
  | resume g => exact startHead_mapErase (by rw [State.bank_setBank_same]; rfl) _
  | read x => exact startHead_idle (.inl (by rw [State.granted, State.bank_setBank_same]; exact Option.some_ne_none _))
  | erase g =>
    unfold State.granted
    dsimp only
    split
    · exact startHead_mapErase (by rw [State.bank_setBank_same]; rfl) _
    · exact startHead_mapErase (by rw [State.bank_setBank_same]; rfl) _

/-! ## Claims -/

theorem BankUnit.waiting_eq (u : BankUnit) : u.waiting = u.queue.length + if u.inFlight = none then 0 else 1 := by
  unfold BankUnit.waiting
  cases u.inFlight <;> rfl

theorem BankState.serves_iff (x : BankState) : x.withholds = false ↔ (x = .free ∨ x = .eraseSuspended) ∨ x = .draining := by
  cases x <;> decide

theorem BankState.withholds_iff (x : BankState) : x.withholds = true ↔ x = .programming ∨ x = .eraseRunning ∨ x = .suspendWait := by
  cases x <;> decide

theorem BankUnit.claimed_idle {u : BankUnit} (c : Claim) (hq : u.queue = []) (hi : u.inFlight = none) :
    u.claimed c = { u with marker := 0, claim := some c } := by
  cases u
  subst hq hi
  rfl

theorem makeClaim_free {s : State} {b : Bank} (c : Claim) (h : (s.bank b).state.withholds = false) (hq : (s.bank b).queue = [])
    (hi : (s.bank b).inFlight = none) : s.makeClaim b c = s.granted b { s.bank b with marker := 0 } c := by
  have hw : (s.bank b).waiting = 0 := by rw [BankUnit.waiting_eq, hq, hi]; rfl
  rw [makeClaim_granted c h hw, BankUnit.claimed_idle c hq hi, grant_setBank (by exact Iff.rfl)]
  exact granted_claim s b { s.bank b with marker := 0 } _ c

theorem makeClaim_inFlight {s : State} {b : Bank} {r : InFlight} (c : Claim) (h : (s.bank b).state.withholds = false)
    (hi : (s.bank b).inFlight = some r) : s.makeClaim b c =
      s.setBank b { s.bank b with
        state := .draining
        inFlight := some { r with counted := true }
        queue := (s.bank b).queue.map (fun q => { q with counted := true })
        claim := some c
        marker := (s.bank b).queue.length + 1 } := by
  have hw : (s.bank b).waiting = (s.bank b).queue.length + 1 := by rw [BankUnit.waiting_eq, hi]; rfl
  have hm : s.makeClaim b c = (s.setBank b { (s.bank b).claimed c with state := .draining }).startHead b := by
    unfold State.makeClaim
    split <;> rename_i hs
    all_goals first | exact absurd h (by rw [hs]; decide) | exact if_neg (by rw [hw]; exact Nat.succ_ne_zero _)
  rw [hm, startHead_idle (.inl (by rw [State.bank_setBank_same]; simp [BankUnit.claimed, hi]))]
  unfold BankUnit.claimed
  rw [hw, hi]
  rfl

/-! ## Reads done and withdrawn -/

theorem readDone_eq {s : State} {b : Bank} {r : InFlight} (h : (s.bank b).inFlight = some r) : s.readDone b =
    (if r.counted = true then (s.setBank b { s.bank b with inFlight := none }).markerDown b
     else s.setBank b { s.bank b with inFlight := none }).startHead b := by
  unfold State.readDone
  rw [h]

/-- A counted read that leaves a bank lowers the marker; at 0 the claim is granted, or the bank returns to rest (R96). -/
theorem markerDown_setBank (s : State) (b : Bank) (v : BankUnit) : (s.setBank b v).markerDown b =
    let u : BankUnit := { v with marker := v.marker - 1 }
    if u.state = .draining ∧ u.marker = 0 then
      match u.claim with
      | some c => (s.setBank b u).granted b u c
      | none => s.setBank b { u with state := u.atRest }
    else s.setBank b u := by
  unfold State.markerDown
  rw [State.bank_setBank_same]
  dsimp only
  simp only [State.setBank_setBank, grant_eq, State.bank_setBank_same, BankUnit.restState_eq] <;> cases v.claim <;> rfl

theorem markerDown_above {s : State} {b : Bank} {v : BankUnit} (h : 2 ≤ v.marker) :
    (s.setBank b v).markerDown b = s.setBank b { v with marker := v.marker - 1 } := by
  rw [markerDown_setBank]
  exact if_neg fun hx => absurd hx.2 (Nat.sub_ne_zero_of_lt h)

theorem markerDown_granted {s : State} {b : Bank} {v : BankUnit} {c : Claim} (hd : v.state = .draining) (h : v.marker = 1)
    (hc : v.claim = some c) : (s.setBank b v).markerDown b = (s.setBank b v).granted b { v with marker := 0 } c := by
  have hm : v.marker - 1 = 0 := by rw [h]
  rw [markerDown_setBank]
  dsimp only
  rw [if_pos ⟨hd, hm⟩, hc, hm]
  dsimp only
  rw [← State.setBank_setBank s b v, granted_setBank (by rw [State.bank_setBank_same])]

theorem markerDown_rest {s : State} {b : Bank} {v : BankUnit} (hd : v.state = .draining) (h : v.marker = 1)
    (hc : v.claim = none) : (s.setBank b v).markerDown b = s.setBank b { v with state := v.atRest, marker := 0 } := by
  have hm : v.marker - 1 = 0 := by rw [h]
  rw [markerDown_setBank]
  dsimp only
  rw [if_pos ⟨hd, hm⟩, hc, hm]
  rfl

theorem release_free {s : State} {b : Bank} (h : (s.bank b).claim = none) :
    s.release b = (s.setBank b { s.bank b with state := (s.bank b).atRest }).startHead b := by
  unfold State.release
  rw [h]
  dsimp only
  rw [BankUnit.restState_eq]

theorem release_claimed {s : State} {b : Bank} {c : Claim} (h : (s.bank b).claim = some c) : s.release b =
    if (s.bank b).marker = 0 then s.granted b (s.bank b) c else (s.setBank b { s.bank b with state := .draining }).startHead b := by
  unfold State.release
  rw [h]
  dsimp only
  rw [grant_eq]

theorem withdrawClaim_eq (s : State) (b : Bank) : s.withdrawClaim b =
    if (s.bank b).marker = 0 then (s.setBank b { s.bank b with state := (s.bank b).atRest, claim := none }).startHead b
    else s.setBank b { s.bank b with claim := none } := by
  unfold State.withdrawClaim
  dsimp only
  rw [release_free (by rw [State.bank_setBank_same]), State.bank_setBank_same, State.setBank_setBank]
  rfl

/-! ## The engine's claims -/

theorem claimRead_eq (s : State) (x : ReadTarget) (g : Nat) (h : x = .header g ∨ ∃ n : Nat, x = .slot ⟨g, n⟩) : s.claimRead x =
    if g < 32 then s.makeClaim (bankOf g) (.read x) else { s with cfgBank := { s.cfgBank with inFlight := some x } } := by
  obtain rfl | ⟨n, rfl⟩ := h <;> rfl

theorem engineReadDone_eq (s : State) (x : ReadTarget) (g : Nat) (h : x = .header g ∨ ∃ n : Nat, x = .slot ⟨g, n⟩) :
    s.engineReadDone x =
      if g < 32 then s.readDone (bankOf g) else { s with cfgBank := { s.cfgBank with inFlight := none } } := by
  obtain rfl | ⟨n, rfl⟩ := h <;> rfl

theorem engineReads_route {s : State} {x : ReadTarget} {g : Nat} (h : x = .header g ∨ ∃ n : Nat, x = .slot ⟨g, n⟩) (hg : g < 32) :
    s.engineReads x = true ↔ ∃ counted : Bool, (s.bank (bankOf g)).inFlight = some ⟨x, .engine, counted⟩ := by
  have he : s.engineReads x = (match (s.bank (bankOf g)).inFlight with | some ⟨t', .engine, _⟩ => decide (t' = x) | _ => false) := by
    obtain rfl | ⟨n, rfl⟩ := h <;> exact if_pos hg
  rw [he]
  match (s.bank (bankOf g)).inFlight with
  | none => simp
  | some ⟨t, .engine, k⟩ => simp
  | some ⟨t, .lookup p, k⟩ => simp
  | some ⟨t, .readSlot o, k⟩ => simp

theorem engineReads_cfg {s : State} {x : ReadTarget} {g : Nat} (h : x = .header g ∨ ∃ n : Nat, x = .slot ⟨g, n⟩) (hg : 32 ≤ g) :
    s.engineReads x = true ↔ s.cfgBank.inFlight = some x := by
  have he : s.engineReads x = decide (s.cfgBank.inFlight = some x) := by
    obtain rfl | ⟨n, rfl⟩ := h <;> exact if_neg (Nat.not_lt.2 hg)
  rw [he, decide_eq_true_iff]

theorem claimProgram_slot {s : State} {p : Program} {a : SlotAddr} {w : SlotWrite} (h : p.job = .slot a w) :
    s.claimProgram p = s.makeClaim (bankOf a.seg) (.program p) := by
  unfold State.claimProgram
  rw [h]

theorem claimProgram_stamp {s : State} {p : Program} {g n : Nat} (h : p.job = .stamp g n) (hg : g < 32) :
    s.claimProgram p = s.makeClaim (bankOf g) (.program p) := by
  unfold State.claimProgram
  rw [h]
  exact if_pos hg

/-- The program is one of the configuration bank. -/
def Job.inCfg (j : Job) : Prop :=
  (∃ g n : Nat, j = .stamp g n ∧ 32 ≤ g) ∨ (∃ a n v, j = .cfgRecord a n v) ∨ ∃ a, j = .cfgVoid a

theorem claimProgram_cfg {s : State} {p : Program} (h : p.job.inCfg) :
    s.claimProgram p = { s with cfgBank := { s.cfgBank with state := .programming }, program := some p } := by
  unfold State.claimProgram
  obtain ⟨g, n, hj, hg⟩ | ⟨a, n, v, hj⟩ | ⟨a, hj⟩ := h
  · rw [hj]
    exact if_neg (Nat.not_lt.2 hg)
  · rw [hj]
  · rw [hj]

theorem SameOutside.kept {s t : State} (h : SameOutside s t) : SameKept s t :=
  ⟨h.store, h.index, h.staging, h.queue, h.issue, h.faults, h.overflow, h.segs, h.memory, h.config, h.opState, h.resetAsserted,
    h.guardRelease, h.pending⟩

theorem SameOutside.egress {s t : State} (h : SameOutside s t) : SameEgress s t :=
  ⟨h.counters, h.traffic, h.replies, h.lineTx, h.delivery, h.tapTx⟩

/-- Settles O43. -/
theorem banksGrantClaimsInTurn : Obligations.BanksGrantClaimsInTurn := by
  unfold Obligations.BanksGrantClaimsInTurn
  intro readable rest granted
  refine ⟨fun s p => ⟨fun a w h => claimProgram_slot h, fun g n h hg => claimProgram_stamp h hg, fun h => claimProgram_cfg h⟩,
    fun s x g h => ⟨fun hg => ⟨(claimRead_eq s x g h).trans (if_pos hg), engineReads_route h hg, (engineReadDone_eq s x g h).trans (if_pos hg)⟩,
      fun hg => ⟨(claimRead_eq s x g h).trans (if_neg (Nat.not_lt.2 hg)), engineReads_cfg h hg,
        (engineReadDone_eq s x g h).trans (if_neg (Nat.not_lt.2 hg))⟩⟩,
    fun s f => ⟨fun e h => mapErase_of_erase h f, fun h => mapErase_of_noErase f h⟩,
    fun s b c h hq hi => makeClaim_free c ((BankState.serves_iff _).2 h) hq hi,
    fun s b c r h hi => makeClaim_inFlight c ((BankState.serves_iff _).2 h) hi, fun s b c h => ?_,
    fun s b c => ?_, fun s b q qs r h hr hi hc hq hs => ?_, fun s b q qs r h hd hi hc hm hq hqc hs => ?_,
    fun s b c r hd hi hc hm hcl => ?_, fun s b r hd hi hc hm hcl => ?_, fun s b p q hq hc => ?_, withdrawClaim_eq,
    fun s b h => release_free h, fun s b c h => release_claimed h,
    fun s b => ⟨startHead_idle, fun q qs hi hq => ⟨fun hr h hs => startHead_starts hi hq hr hs, startHead_waits hq⟩⟩⟩
  · rw [makeClaim_of_withholds c ((BankState.withholds_iff _).2 h)]
    unfold BankUnit.claimed
    rw [BankUnit.waiting_eq]
  · exact ⟨(sameOutside_makeClaim s b c).kept, (sameOutside_release s b).kept, (sameOutside_readDone s b).kept,
      (sameOutside_makeClaim s b c).egress, (sameOutside_release s b).egress, (sameOutside_readDone s b).egress⟩
  · rw [readDone_eq hi, hc]
    refine (startHead_starts (s := s.setBank b { s.bank b with inFlight := none }) (h := h) (q := q) (qs := qs) ?_ ?_ ?_ hs).trans ?_
    all_goals rw [State.bank_setBank_same]
    · exact hq
    · exact .inl hr
    · rw [State.setBank_setBank]
  · rw [readDone_eq hi, hc, if_pos rfl, markerDown_above (by exact hm)]
    refine (startHead_starts (s := s.setBank b { s.bank b with inFlight := none, marker := (s.bank b).marker - 1 }) (h := h) (q := q)
      (qs := qs) ?_ ?_ ?_ hs).trans ?_
    all_goals rw [State.bank_setBank_same]
    · exact hq
    · exact .inr ⟨hd, hqc⟩
    · rw [State.setBank_setBank, hqc]
  · rw [readDone_eq hi, hc, if_pos rfl, markerDown_granted (by exact hd) (by exact hm) (by exact hcl), startHead_granted,
      granted_setBank (by exact Iff.rfl)]
    rfl
  · rw [readDone_eq hi, hc, if_pos rfl, markerDown_rest (by exact hd) (by exact hm) (by exact hcl)]
    rfl
  · intro u
    rw [withdrawRead_found hq, hc, if_pos rfl, markerDown_setBank]
    rfl

end Sys2Proof.Machine
end

section
/-! PROOF. The end of a program: its completions and its deadline (R8, R9, R10, R18, R19, R22, R64, R97, R102). -/

namespace Sys2Proof.Machine

open Sys2Proof

/-! ## The in-use counts -/

theorem inUseOf_setInUse {s : State} (hc : s.canonical = true) (g n : Nat) : (s.setInUse g n).inUseOf g = n := by
  unfold State.inUseOf State.setInUse
  rw [seg_setSeg (segs_of_canonical hc), if_pos rfl]
  rfl

/-- The in-use count of a slot's segment after a program (R64). -/
theorem inUseOf_countInUse {s : State} (hc : s.canonical = true) (a : SlotAddr) (w : SlotWrite) (pass : Bool) :
    (s.countInUse a w pass).inUseOf a.seg =
      match w with
      | .entry _ _ => if pass = true ∧ s.store.slot a = .blank then s.inUseOf a.seg + 1 else s.inUseOf a.seg
      | .seal _ _ => s.inUseOf a.seg
      | .promote => if pass = false ∧ (s.store.slot a).inUse = true then s.inUseOf a.seg - 1 else s.inUseOf a.seg
      | _ => if (s.store.slot a).inUse = true then s.inUseOf a.seg - 1 else s.inUseOf a.seg := by
  have counted : ∀ (P : Prop) [Decidable P] (n : Nat), (if P then s.setInUse a.seg n else s).inUseOf a.seg =
      if P then n else s.inUseOf a.seg := by
    intro P _ n
    split
    · exact inUseOf_setInUse hc _ _
    · rfl
  match w with
  | .seal _ _ => rfl
  | .retire => exact counted _ _
  | .void => exact counted _ _
  | .entry _ _ =>
    refine (counted _ _).trans (ite_congr_of_iff ?_ rfl rfl)
    rw [Bool.and_eq_true, decide_eq_true_iff]
  | .promote =>
    refine (counted _ _).trans (ite_congr_of_iff ?_ rfl rfl)
    rw [Bool.and_eq_true, Bool.not_eq_true']

theorem countInUse_cases (s : State) (a : SlotAddr) (w : SlotWrite) (pass : Bool) :
    s.countInUse a w pass = s ∨ ∃ n, s.countInUse a w pass = s.setInUse a.seg n := by
  have either : ∀ (P : Prop) [Decidable P] (n : Nat), (if P then s.setInUse a.seg n else s) = s ∨
      ∃ m, (if P then s.setInUse a.seg n else s) = s.setInUse a.seg m := by
    intro P _ n
    split
    · exact .inr ⟨n, rfl⟩
    · exact .inl rfl
  match w with
  | .seal _ _ => exact .inl rfl
  | .retire => exact either _ _
  | .void => exact either _ _
  | .entry _ _ => exact either _ _
  | .promote => exact either _ _

theorem countInUse_segs (s : State) (a : SlotAddr) (w : SlotWrite) (pass : Bool) :
    s.countInUse a w pass = { s with segs := (s.countInUse a w pass).segs } := by
  obtain h | ⟨n, h⟩ := countInUse_cases s a w pass
  · rw [h]
  · rw [h]
    rfl

theorem seg_countInUse_other {s : State} (hc : s.canonical = true) {a : SlotAddr} {g : Nat} (hg : g ≠ a.seg) (w : SlotWrite) (pass : Bool) :
    (s.countInUse a w pass).seg g = s.seg g := by
  obtain h | ⟨n, h⟩ := countInUse_cases s a w pass
  · rw [h]
  · rw [h, State.setInUse, seg_setSeg (segs_of_canonical hc), if_neg hg]

theorem seg_countInUse_same {s : State} (hc : s.canonical = true) (a : SlotAddr) (w : SlotWrite) (pass : Bool) :
    (s.countInUse a w pass).seg a.seg = { s.seg a.seg with inUse := ((s.countInUse a w pass).seg a.seg).inUse } := by
  obtain h | ⟨n, h⟩ := countInUse_cases s a w pass
  · rw [h]
  · rw [h, State.setInUse, seg_setSeg (segs_of_canonical hc), if_pos rfl]

/-! ## The end of a program -/

/-- The state whose in-use counts follow the end of a program; those of a repair stand (R64). -/
def State.programCounted (s : State) (p : Program) (pass : Bool) : State :=
  match p.job with
  | .slot a w => if p.role = .repair then s else s.countInUse a w pass
  | _ => s

/-- The state in which a program has ended, its bank not yet released. -/
def State.programEnded (s : State) (p : Program) (pass : Bool) : State :=
  { s.programCounted p pass with store := s.store.programmed p.job pass, program := none }

theorem programCounted_slot {s : State} {p : Program} {a : SlotAddr} {w : SlotWrite} (h : p.job = .slot a w) (hr : p.role ≠ .repair)
    (pass : Bool) : s.programCounted p pass = s.countInUse a w pass := by
  unfold State.programCounted
  rw [h]
  exact if_neg hr

theorem programCounted_other {s : State} {p : Program} (h : (∀ a w, p.job ≠ .slot a w) ∨ p.role = .repair) (pass : Bool) :
    s.programCounted p pass = s := by
  unfold State.programCounted
  split
  · rename_i a w hj
    exact if_pos (h.resolve_left fun x => x a w hj)
  · rfl

theorem programCounted_segs (s : State) (p : Program) (pass : Bool) :
    s.programCounted p pass = { s with segs := (s.programCounted p pass).segs } := by
  unfold State.programCounted
  split
  · split
    · rfl
    · exact countInUse_segs ..
  · rfl

theorem endProgram_eq (s : State) (p : Program) (pass : Bool) :
    s.endProgram p pass = (s.programEnded p pass).releaseProgram p.job := by
  have hs : (s.programCounted p pass).store = s.store := by rw [programCounted_segs]
  unfold State.endProgram State.programEnded
  rw [← hs]
  rfl

theorem programEnded_eq (s : State) (p : Program) (pass : Bool) : s.programEnded p pass =
    { s with store := s.store.programmed p.job pass, segs := (s.programCounted p pass).segs, program := none } := by
  unfold State.programEnded
  rw [programCounted_segs]

theorem segs_releaseProgram (s : State) (j : Job) : (s.releaseProgram j).segs = s.segs := by
  unfold State.releaseProgram
  dsimp only
  split
  · exact (sameOutside_release _ _).segs
  · split
    · exact (sameOutside_release _ _).segs
    · rfl
  · rfl
  · rfl

theorem segs_endProgram (s : State) (p : Program) (pass : Bool) : (s.endProgram p pass).segs = (s.programCounted p pass).segs := by
  rw [endProgram_eq, segs_releaseProgram]
  rfl

theorem seg_endProgram (s : State) (p : Program) (pass : Bool) (g : Nat) : (s.endProgram p pass).seg g = (s.programCounted p pass).seg g :=
  congrArg (fun t => tableGet SegVol.noValue t g) (segs_endProgram s p pass)

theorem inUseOf_endProgram (s : State) (p : Program) (pass : Bool) (g : Nat) :
    (s.endProgram p pass).inUseOf g = (s.programCounted p pass).inUseOf g :=
  congrArg (fun v : SegVol => v.inUse.getD 0) (seg_endProgram s p pass g)

/-- What the end of a program leaves but its bank: the store, the segment values and no program in progress. -/
theorem programEnded_endProgram (s : State) (p : Program) (pass : Bool) : s.programEnded p pass =
    { s with store := (s.endProgram p pass).store, segs := (s.endProgram p pass).segs, program := none } := by
  rw [programEnded_eq, store_endProgram, segs_endProgram]

/-- The program is one of a route bank, on the segment `g`. -/
def Job.inBank (j : Job) (g : Nat) : Prop :=
  (∃ n w, j = .slot ⟨g, n⟩ w) ∨ ((∃ n, j = .stamp g n) ∧ g < 32)

theorem releaseProgram_route {s : State} {j : Job} {g : Nat} (h : j.inBank g) : s.releaseProgram j = s.release (bankOf g) := by
  obtain ⟨n, w, rfl⟩ | ⟨⟨n, rfl⟩, hg⟩ := h
  · rfl
  · exact if_pos hg

theorem releaseProgram_cfg {s : State} {j : Job} (h : j.inCfg) : s.releaseProgram j = { s with cfgBank := { s.cfgBank with state := .free } } := by
  obtain ⟨g, n, rfl, hg⟩ | ⟨a, n, v, rfl⟩ | ⟨a, rfl⟩ := h
  · exact if_neg (Nat.not_lt.2 hg)
  · rfl
  · rfl

theorem startHead_bank (s : State) (b : Bank) : (s.startHead b).program = s.program ∧ ((s.startHead b).bank b).claim = (s.bank b).claim ∧
    ((s.startHead b).bank b).state = (s.bank b).state := by
  unfold State.startHead
  split
  · split
    · refine ⟨rfl, ?_, ?_⟩
      · show ((s.setBank b _).bank b).claim = _
        rw [State.bank_setBank_same]
      · show ((s.setBank b _).bank b).state = _
        rw [State.bank_setBank_same]
    · exact ⟨rfl, rfl, rfl⟩
  · exact ⟨rfl, rfl, rfl⟩

theorem release_free_spec {s : State} {b : Bank} (h : (s.bank b).claim = none) : (s.release b).program = s.program ∧
    ((s.release b).bank b).claim = none ∧ ((s.release b).bank b).state = (s.bank b).atRest := by
  obtain ⟨hp, hc, hs⟩ := startHead_bank (s.setBank b { s.bank b with state := (s.bank b).atRest }) b
  rw [State.bank_setBank_same] at hc hs
  rw [release_free h]
  exact ⟨hp, hc.trans h, hs⟩

theorem exec_completionOf (role : ProgramRole) (pass : Bool) (s : State) : exec (completionOf role pass) s = .next (s.completes role pass) := by
  cases role <;> rfl

theorem exec_completion {s : State} {p : Program} (h : s.program = some p) (pass : Bool) : exec (completionOf p.role pass) s =
    .next (((s.endProgram p pass).afterProgram p.role pass).engineNext).settle := by
  rw [exec_completionOf, completes_of_program s p h]

theorem exec_programDeadlineExpiry {s : State} {p : Program} (h : s.program = some p) : exec .programDeadlineExpiry s =
    .next (((s.endProgram p false).afterProgram p.role false).engineNext).settle := by
  simp only [exec, execProgramDeadlineExpiry, h, State.finishProgram]

/-! ## The store after a program -/

theorem Slot.inUse_iff (x : Slot) : x.inUse = true ↔ ∃ (st : RecState) (n : Nat) (e : Entry), x = .written ⟨st, n, .entry e⟩ ∧ st ≠ .retired := by
  match x with
  | .blank | .void | .indeterminate => simp [Slot.inUse]
  | .written ⟨.pending, n, .entry e⟩ | .written ⟨.live, n, .entry e⟩ | .written ⟨.retired, n, .entry e⟩ => simp [Slot.inUse]
  | .written ⟨.pending, n, .seal k⟩ | .written ⟨.live, n, .seal k⟩ | .written ⟨.retired, n, .seal k⟩ => simp [Slot.inUse]

/-- Settles O44. -/
theorem programsEndOnceWithTheirResult : Obligations.ProgramsEndOnceWithTheirResult := by
  unfold Obligations.ProgramsEndOnceWithTheirResult
  refine ⟨fun s p pass => ?_, fun s p h => ⟨exec_completion h, ?_⟩, store_endProgram, fun m a w pass hm ha => ?_, fun m g n pass hm => ?_,
    fun m a n v pass hm => ?_, fun m a n v pass hm ha hs => ?_, fun s p a w pass hc hj hr => ?_, fun s p pass h => ?_, Slot.inUse_iff,
    fun _ _ => rfl, fun _ _ => rfl, fun _ _ => rfl, fun _ _ st => by cases st <;> rfl, fun _ => rfl⟩
  · intro t ended
    have he : s.programEnded p pass = ended := programEnded_endProgram s p pass
    have hb : ∀ b, ended.bank b = s.bank b := fun _ => rfl
    refine ⟨fun g hg => ?_, fun h => ?_⟩
    · have ht : t = ended.release (bankOf g) := by
        rw [← he, ← releaseProgram_route hg]
        exact endProgram_eq s p pass
      refine ⟨ht, fun hc => ?_⟩
      rw [ht]
      exact release_free_spec (s := ended) hc
    · refine (endProgram_eq s p pass).trans ?_
      rw [releaseProgram_cfg h, he]
  · rw [exec_programDeadlineExpiry h, exec_completion h]
  · exact ⟨Store.slot_programmed_same a w pass hm, rfl, rfl, fun x hx hne => Store.slot_programmed_other m w pass ha hx hne⟩
  · exact ⟨(Store.header_putHeader g g _ hm).trans (if_pos rfl), rfl, rfl,
      fun x hx => (Store.header_putHeader g x _ hm).trans (if_neg hx)⟩
  · exact ⟨Store.cfgSlot_putCfgSlot_same a _ hm, Store.cfgSlot_putCfgSlot_same a _ hm⟩
  · refine ⟨fun x hx hxs hne => ?_, rfl, rfl, rfl, rfl⟩
    have hk : cfgKey x ≠ cfgKey a := fun e => hne (cfgKey_inj hx ha hxs hs e)
    exact ⟨Store.cfgSlot_putCfgSlot_other m _ hk, Store.cfgSlot_putCfgSlot_other m _ hk⟩
  · rw [inUseOf_endProgram, seg_endProgram, programCounted_slot hj hr]
    refine ⟨inUseOf_countInUse hc a w pass, fun g hg => ?_, seg_countInUse_same hc a w pass⟩
    rw [seg_endProgram, programCounted_slot hj hr, seg_countInUse_other hc hg]
  · rw [segs_endProgram, programCounted_other h]

end Sys2Proof.Machine
end

section
/-! PROOF. The phases of a batch: WRITE, SEAL, SETTLE and the VOID programs of a failure (R26, R27, R52 to R61, R84, R85). -/

namespace Sys2Proof.Machine

open Sys2Proof

/-! ## The end of a program of a batch -/

theorem exec_completion_of_role {s : State} {p : Program} {role : ProgramRole} (h : s.program = some p) (hr : p.role = role) (pass : Bool) :
    exec (completionOf role pass) s = .next (((s.endProgram p pass).afterProgram role pass).engineNext).settle :=
  hr ▸ exec_completion h pass

theorem writeDone_eq {s : State} {b : Batch} {k : Nat} (hb : s.batch? = some b) (hs : b.step = .write k) (pass : Bool) :
    s.writeDone pass =
      if pass = true then s.issueWrite b (k + 1)
      else
        (s.addFault (b.faultRecord .writeFault (b.own k) (b.channelAt k))).issueVoid b (b.first + k) (b.channelAt k)
          (b.voidsAfterWrite k) := by
  unfold State.writeDone
  rw [hb]
  dsimp only
  rw [hs]

theorem sealDone_eq {s : State} {b : Batch} (hb : s.batch? = some b) (hs : b.step = .seal) (pass : Bool) : s.sealDone pass =
    if pass = true then
      (s.switchIndex b).settleEntry
        { b with phase := .settle, preds := b.entries.map (fun e => s.position e.channel), faults := b.entries.map (fun _ => []) } 0
    else (s.addFault (b.faultRecord .sealFault b.sealSlot none)).issueVoid b b.sealSlot.slot none b.voidsAfterSeal := by
  unfold State.sealDone
  rw [hb]
  dsimp only
  rw [hs]

theorem settleDone_eq {s : State} {b : Batch} {k : Nat} {st : SettleStep} (hb : s.batch? = some b) (hs : b.step = .settle k st)
    (pass : Bool) : s.settleDone pass = if pass = true then s.settleAfter b k st else s.settleFailed b k st := by
  unfold State.settleDone
  rw [hb]
  dsimp only
  rw [hs]

theorem voidDone_voiding {s : State} {b : Batch} {fs : Nat} {ch : Option Nat} {x : VoidTarget} {xs : List VoidTarget}
    (hb : s.batch? = some b) (hs : b.step = .voiding fs ch (x :: xs)) (pass : Bool) : s.voidDone pass =
    if pass = true then s.issueVoid b fs ch xs
    else
      ((s.addFault (b.faultRecord .voidFault ⟨b.seg, x.slot⟩ x.channel)).faultSegment b.seg).issueVoid
        { b with voidFails := b.voidFails + 1 } fs ch xs := by
  unfold State.voidDone
  rw [hb]
  dsimp only
  rw [hs]

theorem voidDone_settle {s : State} {b : Batch} {k : Nat} {st : SettleStep} (hb : s.batch? = some b) (hs : b.step = .settle k st)
    (pass : Bool) : s.voidDone pass =
    if pass = true then s.settleAfter b k st
    else
      ((s.addFault (b.faultRecord .voidFault (b.settleSlot k st) (b.channelAt k))).faultSegment (b.settleSlot k st).seg).settleAfter
        (b.withFault k .voidFault) k st := by
  unfold State.voidDone
  rw [hb]
  dsimp only
  rw [hs]

/-! ## WRITE (R52 to R54) -/

theorem issueWrite_next {s : State} {b : Batch} {k : Nat} {e : Entry} (h : b.entries[k]? = some e) : s.issueWrite b k =
    ((s.setBatch { b with phase := .write, step := .write k }).bumpFill b.seg).claimProgram
      ⟨.write, .slot ⟨b.seg, b.first + k⟩ (.entry b.issue e)⟩ := by
  unfold State.issueWrite
  rw [h]
  rfl

theorem issueWrite_last {s : State} {b : Batch} {k : Nat} (h : b.entries[k]? = none) : s.issueWrite b k =
    ((s.setBatch { b with phase := .seal, step := .seal }).bumpFill b.seg).claimProgram
      ⟨.seal, .slot ⟨b.seg, b.first + b.entries.length⟩ (.seal b.issue b.entries.length)⟩ := by
  unfold State.issueWrite
  rw [h]
  rfl

/-- Settles O45. -/
theorem writePhaseProgramsEntriesThenTheSeal : Obligations.WritePhaseProgramsEntriesThenTheSeal := by
  unfold Obligations.WritePhaseProgramsEntriesThenTheSeal
  intro s p b k hp hr hb hs
  have he : ∀ pass, exec (.writeProgramCompletion pass) s = .next ((((s.endProgram p pass).writeDone pass)).engineNext).settle :=
    exec_completion_of_role hp hr
  have hd : ∀ pass, (s.endProgram p pass).writeDone pass = _ := fun pass => writeDone_eq (batch_endProgram hb p pass) hs pass
  refine ⟨fun e h => ?_, fun h => ?_, ?_⟩
  · rw [he, hd, if_pos rfl, issueWrite_next h]
  · rw [he, hd, if_pos rfl, issueWrite_last h]
  · rw [he, hd, if_neg Bool.false_ne_true]
    rfl

/-! ## SEAL (R26, R54, R55) -/

/-- The first step of an entry in SETTLE, or the step after it (R56). -/
theorem settleEntry_some {s : State} {b : Batch} {k : Nat} {e : Entry} (h : b.entries[k]? = some e) : s.settleEntry b k =
    let st : SettleStep := if e.isRoute = true then .promote else if b.predAt k = none then .retireOwn else .retirePred
    (s.setBatch { b with phase := .settle, step := .settle k st }).claimProgram
      (if e.isRoute = true then ⟨.settle, .slot ⟨b.seg, b.first + k⟩ .promote⟩
       else ⟨.settle, .slot ((b.predAt k).getD ⟨b.seg, b.first + k⟩) .retire⟩) := by
  unfold State.settleEntry
  rw [h]
  cases e with
  | mk ch kind =>
    cases kind with
    | route f => rfl
    | withdraw =>
      cases hp : b.predAt k with
      | none => rfl
      | some a =>
        have hsl : b.settleSlot k .retirePred = a := by rw [Batch.settleSlot, hp]; rfl
        unfold State.issueSettle
        rw [hsl]
        rfl

theorem settleEntry_none {s : State} {b : Batch} {k : Nat} (h : b.entries[k]? = none) : s.settleEntry b k = s.batchSettled b := by
  unfold State.settleEntry
  rw [h]

theorem position_of_index {s t : State} (h : t.index = s.index) (ch : Nat) : t.position ch = s.position ch :=
  congrArg (fun x => tableGet none x ch) h

theorem position_endProgram (s : State) (p : Program) (pass : Bool) (ch : Nat) : (s.endProgram p pass).position ch = s.position ch :=
  position_of_index (index_endProgram s p pass) ch

/-- The index after positions are set one after the other, as the seal of the batch `b` sets them. -/
def State.switched (s : State) (b : Batch) (l : List (Entry × Nat)) : State :=
  l.foldl (fun acc ek => acc.setPosition ek.1.channel (if ek.1.isRoute then some (b.own ek.2) else none)) s

theorem switched_index (s : State) (b : Batch) (l : List (Entry × Nat)) : s.switched b l = { s with index := (s.switched b l).index } := by
  induction l generalizing s with
  | nil => rfl
  | cons x l ih => exact ih (s.setPosition x.1.channel (if x.1.isRoute then some (b.own x.2) else none))

theorem position_switched_other {s : State} (hc : s.canonical = true) {b : Batch} {l : List (Entry × Nat)} {ch : Nat}
    (h : ∀ x ∈ l, x.1.channel ≠ ch) : (s.switched b l).position ch = s.position ch := by
  induction l generalizing s with
  | nil => rfl
  | cons x l ih =>
    refine (ih (canonical_setPosition _ _ hc) fun y hy => h y (List.mem_cons_of_mem _ hy)).trans ?_
    rw [State.position_setPosition hc, if_neg (h x List.mem_cons_self).symm]

theorem position_switched_same {s : State} (hc : s.canonical = true) {b : Batch} {l : List (Entry × Nat)}
    (hl : (l.map (fun x => x.1.channel)).Nodup) {x : Entry × Nat} (hx : x ∈ l) :
    (s.switched b l).position x.1.channel = if x.1.isRoute = true then some (b.own x.2) else none := by
  induction l generalizing s with
  | nil => cases hx
  | cons y l ih =>
    obtain ⟨hy, hl⟩ := List.nodup_cons.1 hl
    have hc' := canonical_setPosition y.1.channel (if y.1.isRoute then some (b.own y.2) else none) hc
    obtain rfl | hx := List.mem_cons.1 hx
    · refine (position_switched_other hc' fun z hz e => hy (List.mem_map.2 ⟨z, hz, e⟩)).trans ?_
      rw [State.position_setPosition hc, if_pos rfl]
    · exact ih hc' hl hx

/-- Settles O46. -/
theorem sealSwitchesTheIndexAtOneEvent : Obligations.SealSwitchesTheIndexAtOneEvent := by
  unfold Obligations.SealSwitchesTheIndexAtOneEvent
  refine ⟨fun s p b e es hp hr hb hs hes => ?_, fun s b hc hd => ⟨fun i e hi => ?_, fun ch h => ?_, switched_index s b _⟩⟩
  · have he : ∀ pass, exec (.sealProgramCompletion pass) s = .next ((((s.endProgram p pass).sealDone pass)).engineNext).settle :=
      exec_completion_of_role hp hr
    have hdone : ∀ pass, (s.endProgram p pass).sealDone pass = _ := fun pass => sealDone_eq (batch_endProgram hb p pass) hs pass
    refine ⟨?_, ?_⟩
    · have hpos : b.entries.map (fun x => (s.endProgram p true).position x.channel) = b.entries.map (fun x => s.position x.channel) :=
        List.map_congr_left fun x _ => position_endProgram s p true x.channel
      rw [he, hdone, if_pos rfl, hpos, settleEntry_some (e := e) (by rw [hes]; rfl)]
      have hpred : ∀ b' : Batch, b'.preds = b.entries.map (fun x => s.position x.channel) → b'.predAt 0 = s.position e.channel := by
        intro b' hb'
        rw [Batch.predAt, hb', hes]
        rfl
      rw [hpred _ rfl]
      rfl
    · rw [he, hdone, if_neg Bool.false_ne_true]
      rfl
  · refine position_switched_same (x := (e, i)) hc ?_ (List.mem_zipIdx_iff_getElem?.2 hi)
    rw [show (fun x : Entry × Nat => x.1.channel) = Entry.channel ∘ Prod.fst from rfl, ← List.map_map, List.zipIdx_map_fst]
    exact (distinctChannels_iff _).1 hd
  · exact position_switched_other hc fun x hx => h x.1 (List.fst_mem_of_mem_zipIdx hx)

end Sys2Proof.Machine
end

section
/-! PROOF. SETTLE, and the VOID programs that follow a failure (R27, R53, R55 to R60, R85). -/

namespace Sys2Proof.Machine

open Sys2Proof

/-! ## SETTLE (R27, R56 to R58, R60) -/

theorem Batch.channelAt_eq {b : Batch} {k : Nat} {e : Entry} (h : b.entries[k]? = some e) : b.channelAt k = some e.channel := by
  unfold Batch.channelAt
  rw [h]
  rfl

theorem Batch.settleSlot_pred {b : Batch} {k : Nat} {x : SlotAddr} (h : b.predAt k = some x) :
    b.settleSlot k .retirePred = x ∧ b.settleSlot k .voidPred = x := by
  unfold Batch.settleSlot
  rw [h]
  exact ⟨rfl, rfl⟩

theorem issueSettle_eq (s : State) (b : Batch) (k : Nat) (st : SettleStep) : s.issueSettle b k st =
    (s.setBatch { b with phase := .settle, step := .settle k st }).claimProgram ⟨st.role, .slot (b.settleSlot k st) st.write⟩ := rfl

theorem settleAfter_own (s : State) (b : Batch) (k : Nat) :
    s.settleAfter b k .retireOwn = s.settleEntry b (k + 1) ∧ s.settleAfter b k .voidOwn = s.settleEntry b (k + 1) :=
  ⟨rfl, rfl⟩

/-- After a predecessor was retired or voided: the next entry for a ROUTE, the own retire for a WITHDRAW (R58). -/
theorem settleAfter_pred {s : State} {b : Batch} {k : Nat} {e : Entry} (h : b.entries[k]? = some e) :
    (s.settleAfter b k .retirePred = if e.isRoute = true then s.settleEntry b (k + 1) else s.issueSettle b k .retireOwn) ∧
      s.settleAfter b k .voidPred = if e.isRoute = true then s.settleEntry b (k + 1) else s.issueSettle b k .retireOwn := by
  unfold State.settleAfter
  rw [h]
  obtain ⟨ch, kind⟩ := e
  cases kind <;> exact ⟨rfl, rfl⟩

theorem settleAfter_promote (s : State) (b : Batch) (k : Nat) : s.settleAfter b k .promote =
    if b.predAt k = none then s.settleEntry b (k + 1) else s.issueSettle b k .retirePred := by
  unfold State.settleAfter
  cases b.predAt k <;> rfl

theorem settleFailed_promote {s : State} {b : Batch} {k : Nat} {e : Entry} (h : b.entries[k]? = some e) : s.settleFailed b k .promote =
    ((s.setPosition e.channel (b.predAt k)).addFault (b.faultRecord .promoteFault (b.own k) (some e.channel))).issueSettle
      (b.withFault k .promoteFault) k .voidOwn := by
  rw [← Batch.channelAt_eq h, ← show (b.channelAt k).getD 0 = e.channel by rw [Batch.channelAt_eq h]; rfl]
  rfl

theorem settleFailed_retirePred {s : State} {b : Batch} {k : Nat} {e : Entry} {x : SlotAddr} (h : b.entries[k]? = some e)
    (hx : b.predAt k = some x) : s.settleFailed b k .retirePred =
    (s.addFault (b.faultRecord .retireFault x (some e.channel))).issueSettle (b.withFault k .retireFault) k .voidPred := by
  rw [← Batch.channelAt_eq h, ← (Batch.settleSlot_pred hx).1]
  rfl

theorem settleFailed_retireOwn {s : State} {b : Batch} {k : Nat} {e : Entry} (h : b.entries[k]? = some e) :
    s.settleFailed b k .retireOwn =
      (s.addFault (b.faultRecord .retireFault (b.own k) (some e.channel))).issueSettle (b.withFault k .retireFault) k .voidOwn := by
  rw [← Batch.channelAt_eq h]
  rfl

/-- The commit has settled its batch (R60). -/
theorem batchSettled_commit {s : State} {x : Batch} (h : s.op = .commit x) (b : Batch) : s.batchSettled b =
    { (if b.faults.all (fun f => f.isEmpty) = true then
        s.replyStored b.origin .commit .done (byte4 b.issue ++ byte1 b.seg ++ byte1 b.first)
      else
        s.replyStored b.origin .commit .settleFault
          (byte4 b.issue ++ byte1 b.seg ++ byte1 b.first ++ byte1 (b.faults.countP (fun f => !f.isEmpty)) ++
            (settleItems b.entries b.faults).flatten)) with op := .idle } := by
  have hn : b.settleFaults = b.faults.countP (fun f => !f.isEmpty) :=
    congrArg (fun q => b.faults.countP q) (funext fun f => by cases f <;> rfl)
  have hz : b.settleFaults = 0 ↔ b.faults.all (fun f => f.isEmpty) = true := by
    rw [hn, List.countP_eq_zero, List.all_eq_true]
    simp
  unfold State.batchSettled
  rw [h]
  dsimp only
  by_cases hf : b.faults.all (fun f => f.isEmpty) = true
  · rw [if_pos hf, if_pos (hz.2 hf)]
    rfl
  · rw [if_neg hf, if_neg (mt hz.1 hf), hn]
    rfl

/-- Settles O47. -/
theorem settleWorksThroughTheEntries : Obligations.SettleWorksThroughTheEntries := by
  unfold Obligations.SettleWorksThroughTheEntries
  refine ⟨fun s p b k st e hp hr hb hs hk => ?_, fun s b k e h => settleEntry_some h, fun s b x k ho h => ?_⟩
  · have he : ∀ pass, exec (.settleProgramCompletion pass) s = .next ((((s.endProgram p pass).settleDone pass)).engineNext).settle :=
      exec_completion_of_role hp hr
    have hd : ∀ pass, (s.endProgram p pass).settleDone pass = _ := fun pass => settleDone_eq (batch_endProgram hb p pass) hs pass
    refine ⟨?_, ?_, ?_, ?_, ?_, ?_⟩
    · rintro x rfl hx
      rw [he, hd, if_pos rfl, settleAfter_promote, if_neg (by rw [hx]; exact Option.some_ne_none x), issueSettle_eq,
        (Batch.settleSlot_pred hx).1]
      rfl
    · rintro rfl hw
      rw [he, hd, if_pos rfl, (settleAfter_pred hk).1, if_neg (by rw [hw]; exact Bool.false_ne_true)]
      rfl
    · rintro (⟨rfl, hn⟩ | ⟨rfl, hw⟩ | rfl)
      · rw [he, hd, if_pos rfl, settleAfter_promote, if_pos hn]
      · rw [he, hd, if_pos rfl, (settleAfter_pred hk).1, if_pos hw]
      · rw [he, hd, if_pos rfl, (settleAfter_own _ _ _).1]
    · rintro rfl
      rw [he, hd, if_neg Bool.false_ne_true, settleFailed_promote hk]
      rfl
    · rintro x rfl hx
      rw [he, hd, if_neg Bool.false_ne_true, settleFailed_retirePred hk hx, issueSettle_eq,
        (Batch.settleSlot_pred (b := b.withFault k .retireFault) hx).2]
      rfl
    · rintro rfl
      rw [he, hd, if_neg Bool.false_ne_true, settleFailed_retireOwn hk]
      rfl
  · rw [settleEntry_none h]
    exact batchSettled_commit ho b

/-! ## VOID programs (R53, R55, R59, R85) -/

theorem faultSegment_eq (s : State) (g : Nat) : s.faultSegment g =
    if (s.seg g).state = some .opened ∨ (s.seg g).state = some .filled ∨ (s.seg g).state = some .faulted then
      s.setSeg g { s.seg g with state := some .faulted }
    else s := by
  unfold State.faultSegment
  simp only [State.segIs_iff]
  rfl

theorem op_faultSegment (s : State) (g : Nat) : (s.faultSegment g).op = s.op := by
  rw [faultSegment_eq]
  split <;> rfl

theorem issueVoid_next (s : State) (b : Batch) (fs : Nat) (ch : Option Nat) (y : VoidTarget) (ys : List VoidTarget) :
    s.issueVoid b fs ch (y :: ys) =
      (s.setBatch { b with step := .voiding fs ch (y :: ys) }).claimProgram ⟨.void, .slot ⟨b.seg, y.slot⟩ .void⟩ := rfl

theorem issueVoid_last (s : State) (b : Batch) (fs : Nat) (ch : Option Nat) : s.issueVoid b fs ch [] = s.batchVoided b fs ch := rfl

/-- The commit ends with the fault of its phase (R53, R55). -/
theorem batchVoided_commit {s : State} {x : Batch} (h : s.op = .commit x) (b : Batch) (fs : Nat) (ch : Option Nat) :
    s.batchVoided b fs ch =
      { (if b.phase = .write then
          s.replyStored b.origin .commit .writeFault
            (byte4 b.issue ++ byte1 b.seg ++ byte1 fs ++ byte2 (ch.getD 0) ++ byte1 b.voidFails)
        else s.replyStored b.origin .commit .sealFault (byte4 b.issue ++ byte1 b.seg ++ byte1 fs ++ byte1 b.voidFails)) with
        op := .idle } := by
  unfold State.batchVoided
  rw [h]
  dsimp only
  split <;> rfl

/-- The RECLAIM whose relocation batch failed ends with the fault of the batch's phase (R85). -/
theorem batchVoided_reclaim {s : State} {r : ReclaimRec} (h : s.op = .reclaim r) (b : Batch) (fs : Nat) (ch : Option Nat) :
    s.batchVoided b fs ch =
      { s.replyStored r.origin .reclaim (if b.phase = .write then .writeFault else .sealFault)
          (reclaimResultBytes { seg := r.seg, tallies := some r.tallies, failedIssue := some b.issue, failedSeg := some b.seg }) with
        op := .idle } := by
  unfold State.batchVoided
  rw [h]
  rfl

theorem noErase_of_batch {s : State} {b : Batch} (h : s.batch? = some b) : s.noErase := by
  intro e he
  unfold State.batch? at h
  rw [he] at h
  cases h

/-- The state after a VOID program: a fail records VOID_FAULT and faults the segment (R59). -/
def State.voidEnded (s : State) (p : Program) (pass : Bool) (r : FaultRecord) (g : Nat) : State :=
  if pass = true then s.endProgram p true else ((s.endProgram p false).addFault r).faultSegment g

theorem op_voidEnded {s : State} (h : s.noErase) (p : Program) (pass : Bool) (r : FaultRecord) (g : Nat) :
    (s.voidEnded p pass r g).op = s.op := by
  unfold State.voidEnded
  split
  · exact op_endProgram h p true
  · rw [op_faultSegment, State.op_addFault]
    exact op_endProgram h p false

theorem exec_void_voiding {s : State} {p : Program} {b : Batch} {fs : Nat} {ch : Option Nat} {x : VoidTarget} {xs : List VoidTarget}
    (hp : s.program = some p) (hr : p.role = .void) (hb : s.batch? = some b) (hs : b.step = .voiding fs ch (x :: xs)) (pass : Bool) :
    exec (.voidProgramCompletion pass) s =
      .next (((s.voidEnded p pass ⟨.voidFault, some b.seg, some x.slot, x.channel, some b.issue, some b.origin⟩ b.seg).issueVoid
        (if pass = true then b else { b with voidFails := b.voidFails + 1 }) fs ch xs).engineNext).settle := by
  have he : exec (.voidProgramCompletion pass) s = .next ((((s.endProgram p pass).voidDone pass)).engineNext).settle :=
    exec_completion_of_role hp hr pass
  rw [he, voidDone_voiding (batch_endProgram hb p pass) hs]
  cases pass <;> rfl

theorem exec_void_settle {s : State} {p : Program} {b : Batch} {k : Nat} {st : SettleStep} {e : Entry}
    (hp : s.program = some p) (hr : p.role = .void) (hb : s.batch? = some b) (hs : b.step = .settle k st) (hk : b.entries[k]? = some e)
    (pass : Bool) : exec (.voidProgramCompletion pass) s =
      .next (((s.voidEnded p pass ⟨.voidFault, some (b.settleSlot k st).seg, some (b.settleSlot k st).slot, some e.channel, some b.issue,
          some b.origin⟩ (b.settleSlot k st).seg).settleAfter
        (if pass = true then b else { b with faults := b.faults.modify k (fun f => f ++ [.voidFault]) }) k st).engineNext).settle := by
  have he : exec (.voidProgramCompletion pass) s = .next ((((s.endProgram p pass).voidDone pass)).engineNext).settle :=
    exec_completion_of_role hp hr pass
  rw [he, voidDone_settle (batch_endProgram hb p pass) hs, Batch.channelAt_eq hk]
  cases pass <;> rfl

/-- Settles O48. -/
theorem voidProgramsFollowAFailure : Obligations.VoidProgramsFollowAFailure := by
  unfold Obligations.VoidProgramsFollowAFailure
  refine ⟨fun s p b fs ch x xs pass hp hr hb hs => ?_, fun s p b k e pass hp hr hb hk => ?_, faultSegment_eq⟩
  · intro t b1
    have he : exec (.voidProgramCompletion pass) s = .next ((t.issueVoid b1 fs ch xs).engineNext).settle :=
      exec_void_voiding hp hr hb hs pass
    have hop : t.op = s.op := op_voidEnded (noErase_of_batch hb) p pass _ _
    have hb1 : b1.origin = b.origin ∧ b1.issue = b.issue ∧ b1.seg = b.seg ∧ b1.phase = b.phase := by
      cases pass <;> exact ⟨rfl, rfl, rfl, rfl⟩
    obtain ⟨horg, hiss, hseg, hph⟩ := hb1
    refine ⟨?_, ?_, ?_⟩
    · rintro y ys rfl
      rw [he, issueVoid_next, hseg]
    · rintro rfl ho
      rw [he, issueVoid_last, batchVoided_commit (hop.trans ho), horg, hiss, hseg, hph]
    · rintro r rfl ho
      rw [he, issueVoid_last, batchVoided_reclaim (hop.trans ho), hiss, hseg, hph]
  · intro t b1
    have hk1 : b1.entries[k]? = some e := by cases pass <;> exact hk
    refine ⟨fun hs => ?_, fun x hs hx => ?_⟩
    · exact exec_void_settle hp hr hb hs hk pass
    · have he := exec_void_settle hp hr hb hs hk pass
      rw [(Batch.settleSlot_pred hx).2] at he
      have hown : ∀ u : State, u.issueSettle b1 k .retireOwn =
          (u.setBatch { b1 with phase := .settle, step := .settle k .retireOwn }).claimProgram
            ⟨.settle, .slot ⟨b.seg, b.first + k⟩ .retire⟩ := by
        intro u
        cases pass <;> rfl
      refine he.trans (congrArg (fun u : State => Host.Outcome.next (u.engineNext).settle) ?_)
      exact (settleAfter_pred hk1).2.trans (by rw [hown]; rfl)

end Sys2Proof.Machine
end

section
/-! PROOF. The events of a route erase: its completions, its suspension, its end and its timers (R10, R11, R22, R69 to R78, R88, R116). -/

namespace Sys2Proof.Machine

open Sys2Proof

/-! ## The store of an erased and of a torn segment -/

theorem Store.cfgSlots_erased_route (m : Store) {g : Nat} (hg : g < 32) : (m.erased g).cfgSlots = m.cfgSlots := by
  unfold Store.erased
  rw [if_pos (show g < Config.routeSegments from hg)]
  rfl

theorem Store.erased_spec {m : Store} (h : m.wf = true) {g : Nat} (hg : g < 32) :
    (∀ n, n < 64 → (m.erased g).slot ⟨g, n⟩ = .blank) ∧ (m.erased g).header g = .unstamped ∧ m.SameOutsideSegment (m.erased g) g :=
  ⟨fun n hn => (Store.slot_erased ⟨g, n⟩ h hg hn).trans (if_pos rfl), (Store.header_erased g g h).trans (if_pos rfl),
    m.cfgSlots_erased_route hg, fun x hx => (Store.header_erased g x h).trans (if_neg hx),
    fun x hx hne => (Store.slot_erased x h hg hx).trans (if_neg hne)⟩

theorem Store.torn_spec {m : Store} (h : m.wf = true) {g : Nat} (hg : g < 32) :
    (∀ n, n < 64 → (m.torn g).slot ⟨g, n⟩ = .indeterminate) ∧ (m.torn g).header g = .unstamped ∧ m.SameOutsideSegment (m.torn g) g :=
  ⟨fun n hn => (Store.slot_torn ⟨g, n⟩ h hg hn).trans (if_pos rfl), (Store.header_torn g g h).trans (if_pos rfl),
    m.cfgSlots_torn_route hg, fun x hx => (Store.header_torn g x h).trans (if_neg hx),
    fun x hx hne => (Store.slot_torn x h hg hx).trans (if_neg hne)⟩

/-! ## The erase completion and its stamp (R70, R71) -/

theorem erasesOf_bumpErases {s : State} (hc : s.canonical = true) (g : Nat) : (s.bumpErases g).erasesOf g = s.erasesOf g + 1 := by
  unfold State.erasesOf State.bumpErases
  rw [seg_setSeg (segs_of_canonical hc), if_pos rfl]
  rfl

theorem eraseCompleted_eq {s : State} {e : EraseRec} (hc : s.canonical = true) (h : s.op = .erase e) (us : Nat) :
    s.eraseCompleted (e.ran us) =
      ((({ s with
            store := s.store.erased e.seg
            op := .erase { e with activeUs := e.activeUs + us, step := .stamping, runTimer := false } } : State).setSeg e.seg
            { s.seg e.seg with erases := some (s.erasesOf e.seg + 1) }).release (bankOf e.seg)).claimProgram
        ⟨.stamp, .stamp e.seg (s.erasesOf e.seg + 1)⟩ := by
  have hn : (s.bumpErases (e.ran us).seg).erasesOf (e.ran us).seg = s.erasesOf e.seg + 1 := erasesOf_bumpErases hc e.seg
  unfold State.eraseCompleted
  dsimp only
  rw [mapErase_of_erase (by exact h), hn]
  rfl

theorem exec_eraseCompletion {s : State} {e : EraseRec} (h : s.op = .erase e) (us : Nat) :
    exec (.eraseCompletion us) s = .next (s.eraseCompletes e us) := by
  simp only [exec, execEraseCompletion, h]

theorem eraseCompletes_completed {s : State} {e : EraseRec} (h : e.step = .running ∨ e.step = .waiting ∨ (e.step = .suspending ∧ e.held = []))
    (us : Nat) : s.eraseCompletes e us = (s.eraseCompleted (e.ran us)).settle := by
  unfold State.eraseCompletes
  obtain h | h | ⟨h, hh⟩ := h
  · rw [h]
  · rw [h]
  · rw [h, hh]

theorem replyErase_eq (s : State) (e : EraseRec) (st : Status) (r : EraseResult) : s.replyErase e st r =
    match e.reclaim with
    | none => s.replyStored e.origin .erase st (eraseResultBytes r)
    | some t => s.replyStored e.origin .reclaim st
        (reclaimResultBytes { seg := e.seg, tallies := some t, cause := r.cause, erases := r.erases, inUse := r.inUse }) := by
  unfold State.replyErase
  cases e.reclaim <;> rfl

theorem op_replyErase (s : State) (e : EraseRec) (st : Status) (r : EraseResult) : (s.replyErase e st r).op = s.op := by
  rw [replyErase_eq]
  split <;> exact State.op_replyStored ..

theorem stampDone_eq {s : State} {e : EraseRec} (h : s.op = .erase e) (pass : Bool) : s.stampDone pass e =
    { (if pass = true then (s.setSegFill e.seg .clean 0).setInUse e.seg 0
        else (s.setSegFill e.seg .torn 0).addFault (e.faultRecord .stampFault)).replyErase e
        (if pass = true then .done else .eraseFault)
        { seg := e.seg, cause := if pass = true then none else some .stampFault, erases := some (s.erasesOf e.seg),
          activeUs := some e.activeUs, suspensions := some e.suspensions } with op := .idle } := by
  cases pass with
  | true => exact discardErase_of_isErase ⟨e, (op_replyErase ..).trans h⟩
  | false => exact discardErase_of_isErase ⟨e, (op_replyErase ..).trans ((State.op_addFault ..).trans h)⟩

theorem stampEnds_eq {s : State} {e : EraseRec} (h : s.op = .erase e) (pass : Bool) : s.stampEnds pass = s.stampDone pass e := by
  unfold State.stampEnds
  rw [h]

/-- Settles O49. -/
theorem eraseCompletionIsStampedAndAnswered : Obligations.EraseCompletionIsStampedAndAnswered := by
  unfold Obligations.EraseCompletionIsStampedAndAnswered
  refine ⟨fun s e us hc ho hs => ?_, fun m g hm hg => Store.erased_spec hm hg, fun s p e pass hp hr ho => ?_⟩
  · rw [exec_eraseCompletion ho, eraseCompletes_completed hs, eraseCompleted_eq hc ho]
  · intro u c a n v
    have he : exec (.stampProgramCompletion pass) s = .next (((u.stampEnds pass).engineNext)).settle :=
      exec_completion_of_role hp hr pass
    rw [he, stampEnds_eq ho, stampDone_eq ho, replyErase_eq]
    cases e.reclaim <;> cases pass <;> rfl

/-! ## The end of an erase that does not complete (R69, R77, R78, R88, R116) -/

theorem eraseSuspends_eq {s : State} {e : EraseRec} (h : s.op = .erase e) (us : Nat) : s.eraseSuspends (e.ran us) =
    (({ s with
        op := .erase { e with activeUs := e.activeUs + us, step := .suspended, suspensions := e.suspensions + 1, runTimer := false } } :
      State).setBank (bankOf e.seg) { s.bank (bankOf e.seg) with suspended := some e.seg }).release (bankOf e.seg) := by
  unfold State.eraseSuspends
  dsimp only
  rw [mapErase_of_erase h]
  rfl

theorem exec_suspendCompletion {s : State} {e : EraseRec} (h : s.op = .erase e) (us : Nat) :
    exec (.suspendCompletion us) s = .next (s.suspendCompletes e us) := by
  simp only [exec, execSuspendCompletion, h]

theorem exec_stopCompletion {s : State} {e : EraseRec} {c : StopCause} (h : s.op = .erase e) (hs : e.step = .stopping c) (us : Nat) :
    exec (.stopCompletion us) s = .next (s.endHeld c (e.ran us)) := by
  simp only [exec, execStopCompletion, h, hs]

theorem suspendCompletes_free {s : State} {e : EraseRec} (hs : e.step = .suspending) (hh : e.held = []) (us : Nat) :
    s.suspendCompletes e us = ((s.eraseSuspends (e.ran us)).engineNext).settle := by
  unfold State.suspendCompletes
  rw [hs, hh]

theorem suspendCompletes_held {s : State} {e : EraseRec} {c : StopCause} {cs : List StopCause} (hs : e.step = .suspending)
    (hh : e.held = c :: cs) (us : Nat) :
    s.suspendCompletes e us = s.endHeld c { e.ran us with suspensions := e.suspensions + 1 } := by
  unfold State.suspendCompletes
  rw [hs, hh]

theorem eraseCompletes_held {s : State} {e : EraseRec} {c : StopCause} {cs : List StopCause} (hs : e.step = .suspending)
    (hh : e.held = c :: cs) (us : Nat) : s.eraseCompletes e us = s.endHeld c (e.ran us) := by
  unfold State.eraseCompletes
  rw [hs, hh]

theorem releaseErase_eq (s : State) (b : Bank) : s.releaseErase b =
    if (s.bank b).state = .draining ∨ (s.bank b).state = .programming then s.setBank b { s.bank b with suspended := none }
    else (s.setBank b { s.bank b with suspended := none }).release b := by
  unfold State.releaseErase
  dsimp only
  rw [State.bank_setBank_same]
  dsimp only
  cases (s.bank b).state <;> simp

theorem op_releaseErase {s : State} (h : s.noErase) (b : Bank) : (s.releaseErase b).op = s.op := by
  rw [releaseErase_eq]
  split
  · rfl
  · exact op_release (s := s.setBank b _) h b

theorem op_withdrawClaim (s : State) (b : Bank) : (s.withdrawClaim b).op = s.op := by
  rw [withdrawClaim_eq]
  split
  · exact op_startHead _ b
  · rfl

theorem freeEraseBank_eq (s : State) (e : EraseRec) : s.freeEraseBank e =
    if e.step = .claimed then s.withdrawClaim (bankOf e.seg) else s.releaseErase (bankOf e.seg) := by
  unfold State.freeEraseBank
  cases e.step <;> rfl

theorem isErase_freeEraseBank {s : State} (h : s.isErase) (e : EraseRec) : (s.freeEraseBank e).isErase := by
  rw [freeEraseBank_eq]
  split
  · exact isErase_withdrawClaim h _
  · exact isErase_releaseErase h _

theorem op_freeEraseBank {s : State} (h : s.noErase) (e : EraseRec) : (s.freeEraseBank e).op = s.op := by
  rw [freeEraseBank_eq]
  split
  · exact op_withdrawClaim _ _
  · exact op_releaseErase h _

theorem tearSegment_eq {s : State} {e : EraseRec} (h : e.step ≠ .stamping) : s.tearSegment e =
    ({ s with store := if e.step = .claimed then s.store else s.store.torn e.seg } : State).setSeg e.seg
      { s.seg e.seg with state := some .torn, fill := some 0 } := by
  have hm : s.store.cutErase e = if e.step = .claimed then s.store else s.store.torn e.seg := by
    unfold Store.cutErase
    split
    · rename_i ht
      rw [if_neg ((EraseStep.touchesStore_iff _).1 ht).1]
    · rename_i ht
      rw [if_pos (Decidable.byContradiction fun hc => ht ((EraseStep.touchesStore_iff _).2 ⟨hc, h⟩))]
  unfold State.tearSegment
  rw [hm]
  rfl

/-- The state `u` without the record of the erase that `s` holds: that of the current operation, else the suspended one. -/
def State.withoutErase (s u : State) : State :=
  match s.op with
  | .erase _ => { u with op := .idle }
  | _ => { u with suspended := none }

/-- The record of an erase that ended is discarded where the erase was held before (R78, R108, R116). -/
theorem discardErase_eq {s u : State} (he : ∀ e, s.op = .erase e → u.isErase) (hn : s.noErase → u.noErase) :
    u.discardErase = s.withoutErase u := by
  unfold State.withoutErase
  cases ho : s.op with
  | erase e => exact discardErase_of_isErase (he e ho)
  | _ =>
    have hu : u.noErase := hn fun e h => by rw [ho] at h; cases h
    unfold State.discardErase
    split
    · rename_i e h
      exact absurd h (hu e)
    · rfl

/-- What an erase's end leaves, but for its answer: the segment TORN and the bank freed. -/
def State.eraseFreed (s : State) (e : EraseRec) : State :=
  (s.tearSegment e).freeEraseBank e

theorem discardErase_answered (s : State) (e : EraseRec) (r : FaultRecord) (st : Status) (x : EraseResult) :
    (((s.eraseFreed e).addFault r).replyErase e st x).discardErase =
      s.withoutErase (((s.eraseFreed e).addFault r).replyErase e st x) := by
  have hop : (((s.eraseFreed e).addFault r).replyErase e st x).op = (s.eraseFreed e).op :=
    (op_replyErase ..).trans (State.op_addFault ..)
  refine discardErase_eq (fun e' h => ?_) fun h => ?_
  · obtain ⟨e1, h1⟩ := isErase_freeEraseBank (s := s.tearSegment e) ⟨e', h⟩ e
    exact ⟨e1, hop.trans h1⟩
  · exact noErase_of_op h (hop.trans (op_freeEraseBank (s := s.tearSegment e) h e))

/-- Settles O50. -/
theorem erasesSuspendOrEndTorn : Obligations.ErasesSuspendOrEndTorn := by
  unfold Obligations.ErasesSuspendOrEndTorn
  refine ⟨fun s e us ho hs => ⟨fun hh => ?_, fun c cs hh => ⟨?_, ?_⟩⟩, fun s e c us ho hs => exec_stopCompletion ho hs us,
    fun s e hs => ?_, releaseErase_eq, fun m g hm hg => Store.torn_spec hm hg⟩
  · rw [exec_suspendCompletion ho, suspendCompletes_free hs hh, eraseSuspends_eq ho]
  · rw [exec_suspendCompletion ho, suspendCompletes_held hs hh]
    rfl
  · rw [exec_eraseCompletion ho, eraseCompletes_held hs hh]
    rfl
  · intro bank f answer ended
    have hf : s.eraseFreed e = f := by
      unfold State.eraseFreed
      rw [freeEraseBank_eq, tearSegment_eq hs]
    have hend : ∀ (r : FaultRecord) (st : Status) (x : EraseResult), (((s.eraseFreed e).addFault r).replyErase e st x).discardErase =
        ended ((f.addFault r).replyErase e st x) := by
      intro r st x
      rw [discardErase_answered, hf]
      rfl
    refine ⟨(hend _ _ _).trans (congrArg ended ?_), (hend _ _ _).trans (congrArg ended ?_)⟩
    · exact replyErase_eq ..
    · exact replyErase_eq ..

/-! ## The timers of an erase (R69, R73) -/

theorem lookAgain_eq {s : State} {e : EraseRec} (h : s.op = .erase e) : s.lookAgain e =
    if (s.bank (bankOf e.seg)).queue ≠ [] ∨ s.urgentHead = true then
      ({ s with op := .erase { e with step := .suspending } } : State).setBank (bankOf e.seg)
        { s.bank (bankOf e.seg) with state := .suspendWait }
    else
      ({ s with op := .erase { e with step := .running } } : State).setBank (bankOf e.seg)
        { s.bank (bankOf e.seg) with state := .eraseRunning } := by
  unfold State.lookAgain
  rw [mapErase_of_erase h, mapErase_of_erase h]
  exact ite_congr_of_iff (suspensionReason_iff s e.seg) rfl rfl

theorem exec_runIntervalTimerExpiry {s : State} {e : EraseRec} (h : s.op = .erase e) (ht : e.runTimer = true) :
    exec .runIntervalTimerExpiry s = .next (s.intervalEnds e) := by
  simp only [exec, execRunIntervalTimerExpiry, h, ht, if_true]

theorem intervalEnds_eq (s : State) (e : EraseRec) : s.intervalEnds e =
    if e.step = .waiting then ({ s with op := .erase { e with runTimer := false } } : State).lookAgain { e with runTimer := false }
    else { s with op := .erase { e with runTimer := false } } := by
  unfold State.intervalEnds
  dsimp only
  split
  · rename_i h
    rw [if_pos h]
  · rename_i h
    rw [if_neg h]

/-- Settles O51. -/
theorem eraseTimersStopHoldOrLookAgain : Obligations.EraseTimersStopHoldOrLookAgain := by
  unfold Obligations.EraseTimersStopHoldOrLookAgain
  refine ⟨fun s e ho => ⟨fun hs => ?_, fun hs => ?_⟩, fun s e ho ht => ⟨fun hs => ?_, fun hs => ?_⟩⟩
  · obtain hs | hs := hs
    · simp only [exec, execEraseTimeoutExpiry, ho, hs]
    · simp only [exec, execEraseTimeoutExpiry, ho, hs]
  · simp only [exec, execEraseTimeoutExpiry, ho, hs, EraseRec.hold_eq]
  · rw [exec_runIntervalTimerExpiry ho ht, intervalEnds_eq, if_pos hs]
    exact congrArg Host.Outcome.next (lookAgain_eq (s := { s with op := .erase { e with runTimer := false } }) rfl)
  · rw [exec_runIntervalTimerExpiry ho ht, intervalEnds_eq, if_neg hs]

end Sys2Proof.Machine
end

section
/-! PROOF. A RECLAIM: its start, the groups gathered, the source reads and the relocation batches (R80 to R88). -/

namespace Sys2Proof.Machine

open Sys2Proof

/-! ## The source reads and the relocation batch (R82, R83, R87) -/

theorem endReclaim_eq (s : State) (r : ReclaimRec) (st : Status) (x : ReclaimResult) : s.endReclaim r st x =
    { s.replyStored r.origin .reclaim st (reclaimResultBytes { x with seg := r.seg, tallies := some r.tallies }) with op := .idle } := rfl

theorem sourceInFlight_eq_some {s : State} {r : ReclaimRec} {x : Source} {rest : List Source} {images : List Entry}
    (h : s.op = .reclaim r) (hs : r.stage = .reading (x :: rest) images) (he : s.engineReads (.slot ⟨r.seg, x.slot⟩) = true) :
    s.sourceInFlight = some (r, x, rest, images) := by
  unfold State.sourceInFlight
  rw [h]
  dsimp only
  rw [hs]
  exact if_pos he

theorem exec_sourceReadCompletion {s : State} {r : ReclaimRec} {x : Source} {rest : List Source} {images : List Entry}
    (h : s.op = .reclaim r) (hs : r.stage = .reading (x :: rest) images) (he : s.engineReads (.slot ⟨r.seg, x.slot⟩) = true)
    (lost : Bool) : exec (.sourceReadCompletion lost) s =
      .next ((((s.engineReadDone (.slot ⟨r.seg, x.slot⟩)).sourceRead r x rest images (s.readSlotResult ⟨r.seg, x.slot⟩ lost)).engineNext).settle) := by
  simp only [exec, execSourceReadCompletion, sourceInFlight_eq_some h hs he]

/-- What a source read leads to: the images formed, the sources skipped, then the next read, the batch or the end (R82, R87). -/
theorem sourceRead_eq (s : State) (r : ReclaimRec) (x : Source) (rest : List Source) (images : List Entry) (res : ReadResult) :
    s.sourceRead r x rest images res =
      let found := routeCheck res x.channel
      let images1 := match found with
        | some f => images ++ [⟨x.channel, .route f⟩]
        | none => images
      let r1 : ReclaimRec := if found = none then { r with tallies := { r.tallies with skipped := r.tallies.skipped + 1 } } else r
      if r.abandoned = true then
        { (s.replyStored r.origin .reclaim .abandoned (reclaimResultBytes { seg := r.seg, tallies := some r1.tallies })) with op := .idle }
      else
        match rest with
        | y :: ys =>
          ({ s with op := .reclaim { r1 with stage := .reading (y :: ys) images1 } } : State).claimRead (.slot ⟨r.seg, y.slot⟩)
        | [] => if images1 = [] then s.relocateNext r1 else s.startRelocation r1 images1 := by
  unfold State.sourceRead
  simp only [List.isEmpty_iff]
  cases routeCheck res x.channel with
  | none => cases rest <;> rfl
  | some f => cases rest <;> rfl

theorem startRelocation_noRoom {s : State} {r : ReclaimRec} {es : List Entry} (hp : s.placement (es.length + 1) = .noRoom) :
    s.startRelocation r es = s.endReclaim r .noSpace { seg := r.seg, needed := some (es.length + 1) } := by
  unfold State.startRelocation
  rw [hp]

/-- The check of the issue counter, once the space check has placed the batch (R83). -/
theorem startRelocation_placed {s : State} {r : ReclaimRec} {es : List Entry} (hp : s.placement (es.length + 1) ≠ .noRoom) :
    s.startRelocation r es =
      if s.issueExhausted = true then s.endReclaim r .issueExhausted { seg := r.seg }
      else s.beginBatch r.origin es (s.placement (es.length + 1)) (fun b => .reclaim { r with stage := .writing b }) := by
  unfold State.startRelocation
  cases hx : s.placement (es.length + 1) with
  | noRoom => exact absurd hx hp
  | inOpen => rfl
  | inFresh g => rfl

/-- Settles O52. -/
theorem sourceReadsFormTheRelocationBatch : Obligations.SourceReadsFormTheRelocationBatch := by
  unfold Obligations.SourceReadsFormTheRelocationBatch
  refine ⟨fun s r x rest images lost ho hs he => ?_, fun s r e es hc h1 => ⟨fun hp => ?_, fun hp hi => ?_, fun i hi hl => ⟨fun g hp hg => ?_,
    fun g hp => ?_⟩⟩⟩
  · exact (exec_sourceReadCompletion ho hs he lost).trans
      (congrArg (fun u : State => Host.Outcome.next (u.engineNext).settle) (sourceRead_eq ..))
  · exact startRelocation_noRoom (es := e :: es) hp
  · rw [startRelocation_placed (es := e :: es) hp, if_pos ((issueExhausted_iff s).2 hi), endReclaim_eq]
  · have hp' : s.placement ((e :: es).length + 1) = .inOpen := hp
    rw [startRelocation_placed (by rw [hp']; simp), if_neg (by rw [issueExhausted_of_issue hi hl]; decide), hp']
    exact beginBatch_placed (pl := .inOpen) (f := fun b => .reclaim { r with stage := .writing b }) (fun _ _ _ => rfl) hi hg
  · have hp' : s.placement ((e :: es).length + 1) = .inFresh g := hp
    rw [startRelocation_placed (by rw [hp']; simp), if_neg (by rw [issueExhausted_of_issue hi hl]; decide), hp']
    exact beginBatch_inFresh (f := fun b => .reclaim { r with stage := .writing b }) (fun _ _ _ => rfl) hc h1 hi (Nat.succ_pos _) hp'

/-! ## The group gathered (R81) -/

theorem mem_of_tableRises {α : Type} [DecidableEq α] {d : α} {t : Table α} {lo : Nat} (h : tableRisesFrom d lo t = true) (k : Nat) (v : α) :
    (k, v) ∈ t ↔ v ≠ d ∧ tableGet d t k = v := by
  induction t generalizing lo with
  | nil => exact ⟨fun x => absurd x List.not_mem_nil, fun x => absurd x.2.symm x.1⟩
  | cons kv t ih =>
    obtain ⟨k', v'⟩ := kv
    simp only [tableRisesFrom, Bool.and_eq_true, decide_eq_true_eq] at h
    obtain ⟨⟨-, hv'⟩, ht⟩ := h
    rw [List.mem_cons, Prod.mk.injEq, tableGet]
    by_cases e : k = k'
    · subst e
      have hout : (k, v) ∈ t → False := fun hm =>
        ((ih ht).1 hm).1 (((ih ht).1 hm).2.symm.trans (tableGet_below ht (Nat.lt_succ_self k)))
      rw [if_pos rfl]
      exact ⟨fun x => x.elim (fun y => ⟨y.2 ▸ hv', y.2.symm⟩) fun y => (hout y).elim, fun x => .inl ⟨rfl, x.2.symm⟩⟩
    · rw [if_neg e, ih ht]
      exact ⟨fun x => x.elim (fun y => absurd y.1 e) id, .inr⟩

/-- A table in canonical form lists exactly the keys whose value is not the one of unlisted keys. -/
theorem mem_table_iff {α : Type} [DecidableEq α] {d : α} {t : Table α} (h : tableWf d t = true) (k : Nat) (v : α) :
    (k, v) ∈ t ↔ v ≠ d ∧ tableGet d t k = v :=
  mem_of_tableRises h k v

/-- Insertion into a list at its place by a number. -/
structure IsInsertion {α : Type} (num : α → Nat) (ins : α → List α → List α) : Prop where
  nil : ∀ x, ins x [] = [x]
  cons : ∀ x y l, ins x (y :: l) = if num x ≤ num y then x :: y :: l else y :: ins x l

namespace IsInsertion

variable {α : Type} {num : α → Nat} {ins : α → List α → List α}

theorem perm (h : IsInsertion num ins) (x : α) (l : List α) : (ins x l).Perm (x :: l) := by
  induction l with
  | nil => rw [h.nil]
  | cons y l ih =>
    rw [h.cons]
    split
    · exact .refl _
    · exact (ih.cons y).trans (.swap x y l)

theorem rises (h : IsInsertion num ins) (x : α) {l : List α} (hl : l.Pairwise fun a b => num a ≤ num b) :
    (ins x l).Pairwise fun a b => num a ≤ num b := by
  induction l with
  | nil =>
    rw [h.nil]
    exact List.pairwise_singleton _ _
  | cons y l ih =>
    obtain ⟨hy, hl'⟩ := List.pairwise_cons.1 hl
    rw [h.cons]
    split
    · rename_i hxy
      refine List.pairwise_cons.2 ⟨fun z hz => ?_, hl⟩
      obtain rfl | hz := List.mem_cons.1 hz
      · exact hxy
      · exact Nat.le_trans hxy (hy z hz)
    · rename_i hxy
      refine List.pairwise_cons.2 ⟨fun z hz => ?_, ih hl'⟩
      obtain rfl | hz := List.mem_cons.1 ((h.perm x l).mem_iff.1 hz)
      · omega
      · exact hy z hz

theorem foldr_perm (h : IsInsertion num ins) (l : List α) : (l.foldr ins []).Perm l := by
  induction l with
  | nil => exact .refl _
  | cons x l ih => exact (h.perm x _).trans (ih.cons x)

theorem foldr_rises (h : IsInsertion num ins) (l : List α) : (l.foldr ins []).Pairwise fun a b => num a ≤ num b := by
  induction l with
  | nil => exact .nil
  | cons x l ih => exact h.rises x ih

end IsInsertion

theorem insertSource_isInsertion : IsInsertion Source.slot insertSource := ⟨fun _ => rfl, fun _ _ _ => rfl⟩

/-- Every source of a segment at or above the cursor, in slot order. -/
def State.sources (s : State) (g c : Nat) : List Source :=
  (s.index.filterMap (sourceOf g c)).foldr insertSource []

theorem gather_eq (s : State) (g c : Nat) : s.gather g c = (s.sources g c).take 16 := rfl

theorem sources_sorted (s : State) (g c : Nat) : (s.sources g c).Pairwise (fun x y => x.slot ≤ y.slot) :=
  insertSource_isInsertion.foldr_rises _

theorem sourceOf_eq_some {g c : Nat} {kv : Nat × Option SlotAddr} {x : Source} :
    sourceOf g c kv = some x ↔ kv = (x.channel, some ⟨g, x.slot⟩) ∧ c ≤ x.slot := by
  obtain ⟨ch, v⟩ := kv
  obtain ⟨n, xc⟩ := x
  cases v with
  | none => simp [sourceOf]
  | some a =>
    obtain ⟨ag, an⟩ := a
    simp only [sourceOf, Option.ite_none_right_eq_some, Option.some.injEq, Source.mk.injEq, Prod.mk.injEq, SlotAddr.mk.injEq]
    constructor
    · rintro ⟨⟨rfl, h⟩, rfl, rfl⟩
      exact ⟨⟨rfl, rfl, rfl⟩, h⟩
    · rintro ⟨⟨rfl, rfl, rfl⟩, h⟩
      exact ⟨⟨rfl, h⟩, rfl, rfl⟩

theorem mem_sources {s : State} (hc : s.canonical = true) (g c : Nat) (x : Source) :
    x ∈ s.sources g c ↔ s.position x.channel = some ⟨g, x.slot⟩ ∧ c ≤ x.slot := by
  unfold State.sources
  rw [(insertSource_isInsertion.foldr_perm _).mem_iff, List.mem_filterMap]
  simp only [sourceOf_eq_some]
  have hm := mem_table_iff (State.index_wf hc) x.channel (some ⟨g, x.slot⟩ : Option SlotAddr)
  constructor
  · rintro ⟨kv, hkv, rfl, hle⟩
    exact ⟨(hm.1 hkv).2, hle⟩
  · rintro ⟨hp, hle⟩
    exact ⟨_, hm.2 ⟨Option.some_ne_none _, hp⟩, rfl, hle⟩

theorem gather_spec {s : State} (hc : s.canonical = true) (g c : Nat) :
    (s.gather g c).length ≤ 16 ∧ (s.gather g c).Pairwise (fun x y => x.slot ≤ y.slot) ∧
    (∀ x ∈ s.gather g c, s.position x.channel = some ⟨g, x.slot⟩ ∧ c ≤ x.slot) ∧
    ∀ ch n : Nat, s.position ch = some ⟨g, n⟩ → c ≤ n →
      (⟨n, ch⟩ : Source) ∈ s.gather g c ∨ ((s.gather g c).length = 16 ∧ ∀ x ∈ s.gather g c, x.slot ≤ n) := by
  rw [gather_eq]
  have hsorted := sources_sorted s g c
  refine ⟨List.length_take_le _ _, hsorted.sublist (List.take_sublist _ _), fun x hx => (mem_sources hc g c x).1 (List.mem_of_mem_take hx),
    fun ch n hp hn => ?_⟩
  have hmem : (⟨n, ch⟩ : Source) ∈ s.sources g c := (mem_sources hc g c ⟨n, ch⟩).2 ⟨hp, hn⟩
  rw [← List.take_append_drop 16 (s.sources g c)] at hmem hsorted
  obtain hm | hm := List.mem_append.1 hmem
  · exact .inl hm
  · refine .inr ⟨List.length_take_of_le (Nat.le_of_lt ?_), fun x hx => (List.pairwise_append.1 hsorted).2.2 x hx _ hm⟩
    exact List.lt_length_of_take_ne_self fun h => by
      have hd : (s.sources g c).drop 16 = [] := List.drop_eq_nil_of_le (by rw [← h]; exact List.length_take_le _ _)
      rw [hd] at hm
      exact List.not_mem_nil hm

/-! ## The groups of a RECLAIM, and its ERASE phase (R80, R81, R84, R86) -/

theorem cursorAfter_append (xs : List Source) (x : Source) (c : Nat) : cursorAfter (xs ++ [x]) c = x.slot + 1 := by
  induction xs generalizing c with
  | nil => rfl
  | cons y ys ih => exact ih _

theorem relocateNext_none {s : State} {r : ReclaimRec} (h : s.gather r.seg r.cursor = []) :
    s.relocateNext r = s.checkErase r.seg r.origin (some r.tallies) := by
  unfold State.relocateNext
  rw [h]

theorem relocateNext_group {s : State} {r : ReclaimRec} {xs : List Source} {x : Source} (h : s.gather r.seg r.cursor = xs ++ [x]) :
    s.relocateNext r =
      ({ s with op := .reclaim { r with cursor := x.slot + 1, stage := .reading (xs ++ [x]) [] } } : State).claimRead
        (.slot ⟨r.seg, ((xs ++ [x]).headD x).slot⟩) := by
  unfold State.relocateNext
  rw [h]
  cases xs with
  | nil => rfl
  | cons y ys =>
    rw [← cursorAfter_append (y :: ys) x r.cursor]
    rfl

theorem checkErase_reclaim (s : State) (g : Nat) (o : Origin) (t : Tallies) : s.checkErase g o (some t) =
    if s.inUseOf g ≠ 0 then
      { (s.replyStored o .reclaim .segmentInUse (reclaimResultBytes { seg := g, tallies := some t, inUse := some (s.inUseOf g) })) with
        op := .idle }
    else if 100000 ≤ s.erasesOf g then
      { (s.replyStored o .reclaim .worn (reclaimResultBytes { seg := g, tallies := some t, erases := some (s.erasesOf g) })) with
        op := .idle }
    else
      ({ s.setSeg g { s.seg g with state := some .erasing } with op := .erase ⟨g, o, some t, .claimed, 0, 0, false, []⟩ } : State).makeClaim
        (bankOf g) (.erase g) :=
  ite_congr_of_iff Iff.rfl rfl (ite_congr_of_iff decide_eq_true_iff rfl rfl)

theorem startReclaim_eq (s : State) (o : Origin) (g : Nat) : s.startReclaim o g =
    let r : ReclaimRec := ⟨g, o, 0, ⟨0, 0, 0, 0⟩, false, .reading [] []⟩
    match (s.seg g).state with
    | some .opened => (s.setSeg g { s.seg g with state := some .filled }).relocateNext r
    | some .filled => s.relocateNext r
    | some .faulted => s.relocateNext r
    | other => s.replyStored o .reclaim .segmentState (reclaimResultBytes { seg := g, state := other }) := rfl

theorem batchSettled_reclaim {s : State} {r : ReclaimRec} (h : s.op = .reclaim r) (b : Batch) : s.batchSettled b =
    let t : Tallies :=
      ⟨r.tallies.moved + (b.entries.length - b.faults.countP (fun f => decide (FaultKind.promoteFault ∈ f))), r.tallies.skipped,
        r.tallies.sealed + 1, r.tallies.settleFaulted + b.faults.countP (fun f => decide (f ≠ []))⟩
    if r.abandoned = true then
      { (s.replyStored r.origin .reclaim .abandoned (reclaimResultBytes { seg := r.seg, tallies := some t })) with op := .idle }
    else s.relocateNext { r with tallies := t } := by
  unfold State.batchSettled
  rw [h]
  rfl

/-- Settles O53. -/
theorem reclaimGathersRelocatesAndErases : Obligations.ReclaimGathersRelocatesAndErases := by
  unfold Obligations.ReclaimGathersRelocatesAndErases
  refine ⟨fun s o g => ?_, fun s r => ⟨fun h => ?_, fun xs x h => relocateNext_group h⟩, fun s g c hc => gather_spec hc g c,
    fun s r b k ho hk => ?_⟩
  · intro r
    have hs : s.startRequest ⟨o, .reclaim g⟩ = s.startReclaim o g := rfl
    rw [hs, startReclaim_eq]
    refine ⟨fun h => ?_, fun h => ?_, fun h => ?_⟩
    · rw [h]
    · obtain h | h := h <;> rw [h]
    · obtain h | h := h <;> rw [h]
  · rw [relocateNext_none h, checkErase_reclaim]
  · rw [settleEntry_none hk, batchSettled_reclaim ho]

end Sys2Proof.Machine
end

section
/-! PROOF. Configuration writes: the start of a SET CONFIG, the rotation of the segments, the write of the record (R10, R22, R163 to
R174). -/

namespace Sys2Proof.Machine

open Sys2Proof

/-! ## The start of a SET CONFIG (R166 to R169) -/

theorem narrows_iff (old new : ConfigRecord) : narrows old new = true ↔
    ∃ ch : Nat, (old.guardLow ≤ ch ∧ ch ≤ old.guardHigh) ∧ ¬ (new.guardLow ≤ ch ∧ ch ≤ new.guardHigh) := by
  unfold narrows
  simp only [Bool.and_eq_true, decide_eq_true_eq, Bool.not_eq_true', Bool.and_eq_false_iff, decide_eq_false_iff_not]
  constructor
  · rintro ⟨h, hl | hh⟩
    · exact ⟨old.guardLow, ⟨Nat.le_refl _, h⟩, fun x => hl x.1⟩
    · exact ⟨old.guardHigh, ⟨h, Nat.le_refl _⟩, fun x => hh x.2⟩
  · rintro ⟨ch, ⟨h1, h2⟩, hn⟩
    refine ⟨Nat.le_trans h1 h2, ?_⟩
    refine Classical.byContradiction fun hx => ?_
    simp only [not_or, Decidable.not_not] at hx
    exact hn ⟨Nat.le_trans hx.1 h1, Nat.le_trans h2 hx.2⟩

theorem endConfig_eq (s : State) (o : Origin) (st : Status) (x : SetConfigResult) :
    s.endConfig o st x = { s.replyStored o .setConfig st (setConfigResultBytes x) with op := .idle } := rfl

theorem startSetConfig_error {s : State} {o : Origin} {img : ConfigImage} {field : Nat} (h : configOfImage img = .error field) :
    s.startSetConfig o img = s.endConfig o .badRequest { field := some field } := by
  unfold State.startSetConfig
  rw [h]

/-- The configuration write of a SET CONFIG that has passed its checks. -/
def ConfigWrite.start (o : Origin) (c : ConfigRecord) : ConfigWrite := ⟨o, c, .erasing, none, false, none, none, 0⟩

theorem startSetConfig_ok {s : State} {o : Origin} {img : ConfigImage} {c : ConfigRecord} (h : configOfImage img = .ok c) :
    s.startSetConfig o img =
      if narrows s.config.values c = true ∧ s.guardRelease = false then
        s.endConfig o .guarded { guardLow := some s.config.values.guardLow, guardHigh := some s.config.values.guardHigh }
      else if 4294967295 ≤ s.issueNow then s.endConfig o .issueExhausted {}
      else s.rotate (.start o c) := by
  unfold State.startSetConfig
  rw [h]
  exact ite_congr_of_iff (by rw [Bool.and_eq_true, Bool.not_eq_true']) rfl (ite_congr_of_iff (issueExhausted_iff s) rfl rfl)

/-- The segment has the lower erase count of the two, or the same and is CA (R169). -/
def State.lessWornCfg (s : State) (g h : CfgSeg) : Prop :=
  s.erasesOf g.id < s.erasesOf h.id ∨ (s.erasesOf g.id = s.erasesOf h.id ∧ g = .ca)

theorem leastWorn_pair {s : State} {g h : CfgSeg} (hne : h ≠ g) (hl : s.lessWornCfg g h) : s.leastWorn [.ca, .cb] = some g := by
  have ha : s.leastWorn [.ca, .cb] = some (if s.erasesOf CfgSeg.cb.id < s.erasesOf CfgSeg.ca.id then .cb else .ca) := rfl
  rw [ha]
  unfold State.lessWornCfg at hl
  cases g with
  | ca =>
    cases h with
    | ca => exact absurd rfl hne
    | cb => rw [if_neg (by omega)]
  | cb =>
    cases h with
    | cb => exact absurd rfl hne
    | ca => rw [if_pos (hl.resolve_right fun x => nomatch x.2)]

/-- The configuration segments for which a condition holds: both, one, or none. -/
theorem filter_cfgSegs {q : CfgSeg → Bool} {g : CfgSeg} (hg : q g = true) :
    (∃ h, h ≠ g ∧ q h = true ∧ [CfgSeg.ca, CfgSeg.cb].filter q = [.ca, .cb]) ∨
      ((∀ h, h ≠ g → q h = false) ∧ [CfgSeg.ca, CfgSeg.cb].filter q = [g]) := by
  cases g with
  | ca =>
    cases hb : q .cb with
    | true => exact .inl ⟨.cb, by decide, hb, by simp [List.filter, hg, hb]⟩
    | false => exact .inr ⟨fun h hne => by cases h with | ca => exact absurd rfl hne | cb => exact hb, by simp [List.filter, hg, hb]⟩
  | cb =>
    cases ha : q .ca with
    | true => exact .inl ⟨.ca, by decide, ha, by simp [List.filter, hg, ha]⟩
    | false => exact .inr ⟨fun h hne => by cases h with | cb => exact absurd rfl hne | ca => exact ha, by simp [List.filter, hg, ha]⟩

theorem leastWorn_filter {s : State} {q : CfgSeg → Bool} {g : CfgSeg} (hg : q g = true)
    (hl : ∀ h, h ≠ g → q h = true → s.lessWornCfg g h) : s.leastWorn ([CfgSeg.ca, CfgSeg.cb].filter q) = some g := by
  obtain ⟨h, hne, hq, hf⟩ | ⟨-, hf⟩ := filter_cfgSegs hg
  · rw [hf, leastWorn_pair hne (hl h hne hq)]
  · rw [hf]
    rfl

/-- The segment does not hold the record in force (R169). -/
def State.rotationCandidate (s : State) (g : CfgSeg) : Prop :=
  s.config.source.map (fun x => x.addr.seg) ≠ some g.id

theorem rotationCandidates_filter (s : State) (q : CfgSeg → Bool) : s.rotationCandidates.filter q =
    [CfgSeg.ca, CfgSeg.cb].filter (fun g => q g && decide (s.config.source.map (fun x => x.addr.seg) ≠ some g.id)) := by
  unfold State.rotationCandidates
  rw [List.filter_filter]

theorem rotationTarget_eq {s : State} {g : CfgSeg} (hg : s.rotationCandidate g)
    (hl : ∀ h : CfgSeg, h ≠ g → s.rotationCandidate h →
      (s.segIs g.id .torn = true ∧ s.segIs h.id .torn = false) ∨ (s.segIs g.id .torn = s.segIs h.id .torn ∧ s.lessWornCfg g h)) :
    s.rotationTarget s.rotationCandidates = some g := by
  have hcand : ∀ h, decide (s.config.source.map (fun x => x.addr.seg) ≠ some h.id) = true ↔ s.rotationCandidate h :=
    fun h => decide_eq_true_iff
  have hleast : (∀ h : CfgSeg, h ≠ g → s.rotationCandidate h → s.lessWornCfg g h) → s.leastWorn s.rotationCandidates = some g :=
    fun hw => leastWorn_filter ((hcand g).2 hg) fun h hne hq => hw h hne ((hcand h).1 hq)
  unfold State.rotationTarget
  rw [rotationCandidates_filter]
  cases ht : s.segIs g.id .torn with
  | true =>
    have hq : (s.segIs g.id .torn && decide (s.config.source.map (fun x => x.addr.seg) ≠ some g.id)) = true := by
      rw [ht, (hcand g).2 hg]
      rfl
    obtain ⟨h, hne, hq, hf⟩ | ⟨-, hf⟩ := filter_cfgSegs
      (q := fun g => s.segIs g.id .torn && decide (s.config.source.map (fun x => x.addr.seg) ≠ some g.id)) hq
    · rw [hf]
      refine hleast fun h' hne' hc' => ?_
      have hh : h' = h := by
        cases g <;> cases h <;> cases h' <;> first | rfl | exact absurd rfl hne | exact absurd rfl hne'
      rw [hh]
      have htorn : s.segIs h.id .torn = true := (Bool.and_eq_true _ _ ▸ hq).1
      exact ((hl h hne (hh ▸ hc')).resolve_left fun x => by rw [htorn] at x; cases x.2).2
    · rw [hf]
  | false =>
    have hnone : [CfgSeg.ca, CfgSeg.cb].filter
        (fun g => s.segIs g.id .torn && decide (s.config.source.map (fun x => x.addr.seg) ≠ some g.id)) = [] := by
      rw [List.filter_eq_nil_iff]
      intro h _ hx
      rw [Bool.and_eq_true, hcand] at hx
      by_cases e : h = g
      · rw [e, ht] at hx
        cases hx.1
      · obtain ⟨x, -⟩ | ⟨x, -⟩ := hl h e hx.2
        · rw [ht] at x
          cases x
        · rw [ht, hx.1] at x
          cases x
    rw [hnone]
    exact hleast fun h hne hc => ((hl h hne hc).resolve_left fun x => by rw [ht] at x; cases x.1).2

theorem rotate_room {s : State} {w : ConfigWrite} {g : CfgSeg} (ho : s.openCfgSeg = some g) (hf : s.fillOf g.id < 16) :
    s.rotate w = s.beginConfigWrite w := by
  unfold State.rotate
  rw [ho]
  exact if_pos (decide_eq_true hf)

/-- Without room in an OPEN segment: a CLEAN candidate is opened, else a candidate is erased (R169). -/
theorem rotate_full {s : State} {w : ConfigWrite} (h : ∀ g, s.openCfgSeg = some g → 16 ≤ s.fillOf g.id) : s.rotate w =
    match s.leastWorn (s.rotationCandidates.filter (fun g => s.segIs g.id .clean)) with
    | some g => (s.openConfigSegment g).beginConfigWrite w
    | none =>
      match s.rotationTarget s.rotationCandidates with
      | some g =>
        if s.worn g.id then s.endConfig w.origin .worn { seg := some g.id, erases := some (s.erasesOf g.id) }
        else
          { s.setSegFill g.id .torn 0 with
            cfgBank := { s.cfgBank with state := .eraseRunning }
            op := .configWrite { w with step := .erasing, target := some g, rotated := true } }
      | none => s := by
  have hroom : (match s.openCfgSeg with | some g => decide (s.fillOf g.id < Config.slotsPerCfgSegment) | none => false) = false := by
    cases ho : s.openCfgSeg with
    | none => rfl
    | some g => exact decide_eq_false (Nat.not_lt.2 (h g ho))
  refine (if_neg ?_).trans rfl
  exact fun hx => absurd (hroom.symm.trans hx) (by decide)

/-- Settles O54. -/
theorem setConfigStartsWhenItsChecksPass : Obligations.SetConfigStartsWhenItsChecksPass := by
  unfold Obligations.SetConfigStartsWhenItsChecksPass
  refine ⟨narrows_iff, fun s o img => ?_⟩
  have hs : s.startRequest ⟨o, .setConfig img⟩ = s.startSetConfig o img := rfl
  rw [hs]
  refine ⟨fun field h => startSetConfig_error h, fun c hc => ⟨fun hn hg => ?_, fun hn => ?_⟩⟩
  · rw [startSetConfig_ok hc, if_pos ⟨hn, hg⟩, endConfig_eq]
  · have hng : ¬ (narrows s.config.values c = true ∧ s.guardRelease = false) := by
      rintro ⟨h1, h2⟩
      obtain h | h := hn
      · rw [h1] at h
        cases h
      · rw [h2] at h
        cases h
    rw [startSetConfig_ok hc, if_neg hng]
    refine ⟨fun hi => by rw [if_pos hi, endConfig_eq], fun hi => ?_⟩
    rw [if_neg (Nat.not_le.2 hi)]
    intro w candidate lessWorn
    refine ⟨fun g ho hf => rotate_room ho hf, fun hfull => ?_⟩
    rw [rotate_full hfull]
    refine ⟨fun g hg hcl hl => ?_, fun g hnc hg hl => ?_⟩
    · have hleast : s.leastWorn (s.rotationCandidates.filter (fun g => s.segIs g.id .clean)) = some g := by
        rw [rotationCandidates_filter]
        refine leastWorn_filter (Bool.and_eq_true _ _ ▸ ⟨hcl, decide_eq_true hg⟩) fun h hne hq => ?_
        obtain ⟨h1, h2⟩ := Bool.and_eq_true _ _ ▸ hq
        exact hl h hne (of_decide_eq_true h2) h1
      rw [hleast]
      rfl
    · have hnone : s.rotationCandidates.filter (fun g => s.segIs g.id .clean) = [] := by
        rw [rotationCandidates_filter, List.filter_eq_nil_iff]
        intro h _ hq
        obtain ⟨h1, h2⟩ := Bool.and_eq_true _ _ ▸ hq
        rw [hnc h (of_decide_eq_true h2)] at h1
        cases h1
      rw [hnone, rotationTarget_eq hg hl]
      exact ite_congr_of_iff decide_eq_true_iff rfl rfl

end Sys2Proof.Machine
end

section
/-! PROOF. The rotation of the configuration segments and the write of the record (R10, R22, R163, R169 to R174). -/

namespace Sys2Proof.Machine

open Sys2Proof

/-! ## The OPEN configuration segment (R163, R169) -/

theorem atMostOneOpenCfg_iff (s : State) : s.atMostOneOpenCfg = true ↔
    ¬ ((s.seg CfgSeg.ca.id).state = some .opened ∧ (s.seg CfgSeg.cb.id).state = some .opened) := by
  unfold State.atMostOneOpenCfg
  rw [Bool.not_eq_true', ← Bool.not_eq_true, Bool.and_eq_true, State.segIs_iff, State.segIs_iff]
  rfl

theorem openCfgSeg_some {s : State} {g : CfgSeg} (h : s.openCfgSeg = some g) : (s.seg g.id).state = some .opened :=
  (State.segIs_iff ..).1 (List.find?_some (p := fun g : CfgSeg => s.segIs g.id .opened) h)

theorem openCfgSeg_none {s : State} (h : s.openCfgSeg = none) (g : CfgSeg) : (s.seg g.id).state ≠ some .opened := by
  intro hg
  exact List.find?_eq_none.1 h g (by cases g <;> decide) ((State.segIs_iff ..).2 hg)

theorem openCfgSeg_unique {s : State} (h : s.atMostOneOpenCfg = true) {f g : CfgSeg} (hf : (s.seg f.id).state = some .opened)
    (hg : (s.seg g.id).state = some .opened) : f = g := by
  have hn := (atMostOneOpenCfg_iff s).1 h
  cases f with
  | ca =>
    cases g with
    | ca => rfl
    | cb => exact absurd ⟨hf, hg⟩ hn
  | cb =>
    cases g with
    | ca => exact absurd ⟨hg, hf⟩ hn
    | cb => rfl

theorem openCfgSeg_eq_some {s : State} (h : s.atMostOneOpenCfg = true) (g : CfgSeg) :
    s.openCfgSeg = some g ↔ (s.seg g.id).state = some .opened := by
  refine ⟨openCfgSeg_some, fun hg => ?_⟩
  cases ho : s.openCfgSeg with
  | none => exact absurd hg (openCfgSeg_none ho g)
  | some f => rw [openCfgSeg_unique h (openCfgSeg_some ho) hg]

theorem CfgSeg.id_inj {f g : CfgSeg} (h : f.id = g.id) : f = g := by
  cases f <;> cases g <;> first | rfl | exact absurd h (by decide)

theorem CfgSeg.id_eq (g : CfgSeg) : g.id = 32 ∨ g.id = 33 := by
  cases g <;> decide

/-- A configuration segment that is opened is OPEN and empty; the one that was OPEN is FILLED (R169, R170). -/
theorem seg_openConfigSegment {s : State} (hc : s.canonical = true) (g : CfgSeg) (x : Nat) : (s.openConfigSegment g).seg x =
    if x = g.id then { s.seg g.id with state := some .opened, fill := some 0 }
    else if s.openCfgSeg.map CfgSeg.id = some x then { s.seg x with state := some .filled }
    else s.seg x := by
  have opened : (s.setSegFill g.id .opened 0).seg x =
      if x = g.id then { s.seg g.id with state := some .opened, fill := some 0 } else s.seg x :=
    seg_setSeg (segs_of_canonical hc) _ _ _
  unfold State.openConfigSegment
  cases ho : s.openCfgSeg with
  | none =>
    rw [opened]
    rfl
  | some o =>
    dsimp only
    split
    · rename_i e
      rw [opened, e]
      refine ite_congr rfl (fun _ => rfl) fun hx => ?_
      rw [if_neg]
      rintro h
      exact hx (Option.some.inj h).symm
    · rename_i e
      have hgo : g.id ≠ o.id := fun h => e (CfgSeg.id_inj h).symm
      unfold State.setSegFill State.setSegState
      rw [seg_setSeg (segs_of_canonical (canonical_setSeg _ _ hc)), seg_setSeg (segs_of_canonical hc), seg_setSeg (segs_of_canonical hc),
        if_neg hgo]
      exact ite_congr_of_iff Iff.rfl rfl (ite_congr (propext ⟨fun h => congrArg some h.symm, fun h => (Option.some.inj h).symm⟩)
        (fun h => by rw [← Option.some.inj h] <;> rfl) fun _ => rfl)

theorem openConfigSegment_eq (s : State) (g : CfgSeg) : s.openConfigSegment g = { s with segs := (s.openConfigSegment g).segs } := by
  unfold State.openConfigSegment
  cases s.openCfgSeg with
  | none => rfl
  | some o =>
    dsimp only
    split <;> rfl

/-! ## The rotation erase and its stamp (R170, R171) -/

theorem rotationAt_eq {s : State} {w : ConfigWrite} {g : CfgSeg} {x : ConfigStep} (h : s.op = .configWrite w) (ht : w.target = some g)
    (hx : w.step = x) : s.rotationAt x = some (w, g) := by
  unfold State.rotationAt
  rw [h]
  dsimp only
  rw [if_pos hx, ht]
  rfl

theorem noErase_of_configWrite {s : State} {w : ConfigWrite} (h : s.op = .configWrite w) : s.noErase := by
  intro e he
  rw [h] at he
  cases he

theorem CfgSeg.stamp_inCfg (g : CfgSeg) (n : Nat) : (Job.stamp g.id n).inCfg :=
  .inl ⟨_, n, rfl, Nat.le_of_not_lt g.not_route⟩

theorem configErased_eq {s : State} (hc : s.canonical = true) (w : ConfigWrite) (g : CfgSeg) : s.configErased w g =
    ({ s with
        store := s.store.erased g.id
        op := .configWrite { w with step := .stamping }
        cfgBank := { s.cfgBank with state := .programming }
        program := some ⟨.configStamp, .stamp g.id (s.erasesOf g.id + 1)⟩ } : State).setSeg g.id
      { s.seg g.id with erases := some (s.erasesOf g.id + 1) } := by
  unfold State.configErased
  dsimp only
  rw [claimProgram_cfg (g.stamp_inCfg _), erasesOf_bumpErases hc]
  rfl

theorem configEnds_stamp {s : State} {w : ConfigWrite} {g : CfgSeg} (h : s.op = .configWrite w) (ht : w.target = some g) (pass : Bool) :
    s.configEnds .configStamp pass = s.configStampDone pass w g := by
  unfold State.configEnds
  rw [h]
  dsimp only
  rw [ht]

theorem rotationFailed_eq (s : State) (w : ConfigWrite) (g : CfgSeg) (c : FailureCause) : s.rotationFailed w g c =
    { ((s.addFault ⟨.configFault, some g.id, none, none, none, some w.origin⟩).replyStored w.origin .setConfig .configFault
        (setConfigResultBytes { seg := some g.id, cause := some c, erases := some (s.erasesOf g.id) })) with op := .idle } := rfl

/-! ## The store of an erased configuration segment -/

theorem Store.cfgSlot_erased {m : Store} (g : CfgSeg) {a : SlotAddr} (h : m.wf = true) (ha : a.seg = 32 ∨ a.seg = 33) (hs : a.slot < 16) :
    (m.erased g.id).cfgSlot a = if a.seg = g.id then .blank else m.cfgSlot a := by
  unfold Store.erased
  rw [if_neg g.not_route]
  exact Store.cfgSlot_fillCfgSegment g .blank h ha hs

theorem Store.slots_erased_cfg (m : Store) (g : CfgSeg) : (m.erased g.id).slots = m.slots := by
  unfold Store.erased
  rw [if_neg g.not_route]
  rfl

theorem Store.erased_torn_cfg {m : Store} (g : CfgSeg) (h : m.wf = true) :
    (∀ n : Nat, n < 16 →
      (m.erased g.id).cfgSlot ⟨g.id, n⟩ = .blank ∧ (m.torn g.id).cfgSlot ⟨g.id, n⟩ = .indeterminate) ∧
    (m.erased g.id).header g.id = .unstamped ∧ (m.torn g.id).header g.id = .unstamped ∧
    (m.erased g.id).slots = m.slots ∧ (m.torn g.id).slots = m.slots ∧
    (∀ x : Nat, x ≠ g.id → (m.erased g.id).header x = m.header x ∧ (m.torn g.id).header x = m.header x) ∧
    ∀ x : SlotAddr, x.seg = 32 ∨ x.seg = 33 → x.seg ≠ g.id → x.slot < 16 →
      (m.erased g.id).cfgSlot x = m.cfgSlot x ∧ (m.torn g.id).cfgSlot x = m.cfgSlot x := by
  refine ⟨fun n hn => ⟨?_, ?_⟩, ?_, ?_, m.slots_erased_cfg g, m.slots_torn_cfg g.not_route, fun x hx => ⟨?_, ?_⟩, fun x hx hne hs => ⟨?_, ?_⟩⟩
  · exact (Store.cfgSlot_erased g h g.id_eq hn).trans (if_pos rfl)
  · exact (Store.cfgSlot_torn g h g.id_eq hn).trans (if_pos rfl)
  · exact (Store.header_erased _ _ h).trans (if_pos rfl)
  · exact (Store.header_torn _ _ h).trans (if_pos rfl)
  · exact (Store.header_erased _ _ h).trans (if_neg hx)
  · exact (Store.header_torn _ _ h).trans (if_neg hx)
  · exact (Store.cfgSlot_erased g h hx hs).trans (if_neg hne)
  · exact (Store.cfgSlot_torn g h hx hs).trans (if_neg hne)

/-- Settles O55. -/
theorem rotationErasesStampsAndOpens : Obligations.RotationErasesStampsAndOpens := by
  unfold Obligations.RotationErasesStampsAndOpens
  refine ⟨fun s h => openCfgSeg_eq_some h, fun s g hc h1 => ⟨?_, fun h hne => ?_, fun x hx hy => ?_, openConfigSegment_eq s g⟩,
    fun s w g hc ho ht => ⟨fun hs => ?_, fun hs => ?_, fun hs => ?_, fun p hp hr => ?_⟩, fun m g hm => Store.erased_torn_cfg g hm⟩
  · rw [seg_openConfigSegment hc, if_pos rfl]
  · rw [seg_openConfigSegment hc, if_neg fun e => hne (CfgSeg.id_inj e)]
    refine ite_congr_of_iff ?_ rfl rfl
    rw [← openCfgSeg_eq_some h1, Option.map_eq_some_iff]
    exact ⟨fun ⟨o, e, hid⟩ => CfgSeg.id_inj hid ▸ e, fun e => ⟨h, e, rfl⟩⟩
  · have hid : ∀ o : CfgSeg, o.id ≠ x := fun o e => o.id_eq.elim (fun h => hx (e ▸ h)) fun h => hy (e ▸ h)
    rw [seg_openConfigSegment hc, if_neg (hid g).symm, if_neg]
    intro h
    obtain ⟨o, -, e⟩ := Option.map_eq_some_iff.1 h
    exact hid o e
  · simp only [exec, execConfigEraseCompletion, rotationAt_eq ho ht hs, configErased_eq hc]
  · simp only [exec, execConfigEraseTimeout, rotationAt_eq ho ht hs]
  · simp only [exec, execConfigStopCompletion, rotationAt_eq ho ht hs]
    rfl
  · have he : ∀ pass, exec (.configStampCompletion pass) s =
        .next ((((s.endProgram p pass).configEnds .configStamp pass)).engineNext).settle := exec_completion_of_role hp hr
    have hop : ∀ pass, (s.endProgram p pass).op = .configWrite w := fun pass =>
      (op_endProgram (noErase_of_configWrite ho) p pass).trans ho
    refine ⟨?_, ?_⟩
    · rw [he, configEnds_stamp (hop true) ht]
      rfl
    · rw [he, configEnds_stamp (hop false) ht]
      rfl

/-! ## The write of the record (R172, R173) -/

theorem beginConfigWrite_eq {s : State} {g : CfgSeg} (h : s.openCfgSeg = some g) (w : ConfigWrite) : s.beginConfigWrite w =
    ({ s with
        issue := some (s.issueNow + 1)
        op := .configWrite { w with step := .writing, issue := some s.issueNow, slot := some ⟨g.id, s.fillOf g.id⟩ }
        cfgBank := { s.cfgBank with state := .programming }
        program := some ⟨.configWrite, .cfgRecord ⟨g.id, s.fillOf g.id⟩ s.issueNow w.new⟩ } : State).setSeg g.id
      { s.seg g.id with fill := some (s.fillOf g.id + 1) } := by
  unfold State.beginConfigWrite
  rw [h]
  rfl

theorem configEnds_write {s : State} {w : ConfigWrite} {a : SlotAddr} {n : Nat} (h : s.op = .configWrite w) (ha : w.slot = some a)
    (hn : w.issue = some n) (pass : Bool) :
    s.configEnds .configWrite pass = s.configWriteDone pass w a n ∧ s.configEnds .configVoid pass = s.configVoidDone pass w a n := by
  unfold State.configEnds
  rw [h]
  dsimp only
  rw [ha, hn]
  cases w.target <;> exact ⟨rfl, rfl⟩

theorem configWriteDone_failed (s : State) (w : ConfigWrite) (a : SlotAddr) (n : Nat) : s.configWriteDone false w a n =
    { s.addFault ⟨.configFault, some a.seg, some a.slot, none, some n, some w.origin⟩ with
      op := .configWrite { w with step := .voiding }
      cfgBank := { s.cfgBank with state := .programming }
      program := some ⟨.configVoid, .cfgVoid a⟩ } := by
  have hb : (s.addFault ⟨.configFault, some a.seg, some a.slot, none, some n, some w.origin⟩).cfgBank = s.cfgBank :=
    State.cfgBank_addFault ..
  rw [← hb]
  rfl

/-- Settles O56. -/
theorem configWriteReplacesTheRecordInForce : Obligations.ConfigWriteReplacesTheRecordInForce := by
  unfold Obligations.ConfigWriteReplacesTheRecordInForce
  refine ⟨fun s w g h => beginConfigWrite_eq h w, fun s p w a n hp ho ha hn => ?_⟩
  have hop : ∀ pass, (s.endProgram p pass).op = .configWrite w := fun pass =>
    (op_endProgram (noErase_of_configWrite ho) p pass).trans ho
  refine ⟨fun hr => ?_, fun hr pass => ?_⟩
  · have he : ∀ pass, exec (.configWriteCompletion pass) s =
        .next ((((s.endProgram p pass).configEnds .configWrite pass)).engineNext).settle := exec_completion_of_role hp hr
    refine ⟨?_, ?_⟩
    · rw [he, (configEnds_write (hop true) ha hn true).1]
      rfl
    · rw [he, (configEnds_write (hop false) ha hn false).1, configWriteDone_failed]
  · have he : exec (.configVoidCompletion pass) s =
        .next ((((s.endProgram p pass).configEnds .configVoid pass)).engineNext).settle := exec_completion_of_role hp hr pass
    rw [he, (configEnds_write (hop pass) ha hn pass).2]
    cases pass <;> rfl

end Sys2Proof.Machine
end

section
/-! PROOF. The scans of the mount (R11, R185, R186). -/

namespace Sys2Proof.Machine

open Sys2Proof

/-! ## The values of several segments set -/

/-- The value of each segment of a list replaced in turn by one that the old value and the segment give. -/
def State.setSegs (s : State) (f : SegVol → Nat → SegVol) (l : List Nat) : State :=
  l.foldl (fun acc g => acc.setSeg g (f (acc.seg g) g)) s

theorem setSegs_segs (s : State) (f : SegVol → Nat → SegVol) (l : List Nat) : s.setSegs f l = { s with segs := (s.setSegs f l).segs } := by
  induction l generalizing s with
  | nil => rfl
  | cons g l ih => exact ih (s.setSeg g (f (s.seg g) g))

theorem canonical_setSegs {s : State} (hc : s.canonical = true) (f : SegVol → Nat → SegVol) (l : List Nat) :
    (s.setSegs f l).canonical = true := by
  induction l generalizing s with
  | nil => exact hc
  | cons g l ih => exact ih (canonical_setSeg _ _ hc)

theorem seg_setSegs {s : State} (hc : s.canonical = true) (f : SegVol → Nat → SegVol) {l : List Nat} (hl : l.Nodup) (x : Nat) :
    (s.setSegs f l).seg x = if x ∈ l then f (s.seg x) x else s.seg x := by
  induction l generalizing s with
  | nil => rfl
  | cons g l ih =>
    obtain ⟨hg, hl⟩ := List.nodup_cons.1 hl
    refine (ih (canonical_setSeg _ _ hc) hl).trans ?_
    rw [seg_setSeg (segs_of_canonical hc)]
    by_cases e : x = g
    · subst e
      rw [if_neg hg, if_pos rfl, if_pos List.mem_cons_self]
    · rw [if_neg e]
      exact ite_congr_of_iff (by rw [List.mem_cons, or_iff_right e]) rfl rfl

theorem seg_setSegs_range {s : State} (hc : s.canonical = true) (f : SegVol → Nat → SegVol) (n x : Nat) :
    (s.setSegs f (List.range n)).seg x = if x < n then f (s.seg x) x else s.seg x :=
  (seg_setSegs hc f List.nodup_range x).trans (ite_congr_of_iff List.mem_range rfl rfl)

/-! ## The largest of a list -/

theorem foldl_max_spec {α : Type} (f : α → Nat) (l : List α) (b : Nat) :
    let r := l.foldl (fun best x => max best (f x)) b
    b ≤ r ∧ (∀ x ∈ l, f x ≤ r) ∧ (r = b ∨ ∃ x ∈ l, f x = r) := by
  induction l generalizing b with
  | nil => exact ⟨Nat.le_refl _, fun x hx => absurd hx List.not_mem_nil, .inl rfl⟩
  | cons y l ih =>
    obtain ⟨h1, h2, h3⟩ := ih (max b (f y))
    refine ⟨Nat.le_trans (Nat.le_max_left ..) h1, fun x hx => ?_, ?_⟩
    · obtain rfl | hx := List.mem_cons.1 hx
      · exact Nat.le_trans (Nat.le_max_right ..) h1
      · exact h2 x hx
    · obtain h3 | ⟨x, hx, h3⟩ := h3
      · obtain hm | hm := Nat.le_total b (f y)
        · exact .inr ⟨y, List.mem_cons_self, (h3.trans (Nat.max_eq_right hm)).symm⟩
        · exact .inl (h3.trans (Nat.max_eq_left hm))
      · exact .inr ⟨x, List.mem_cons_of_mem _ hx, h3⟩

/-! ## The erase counts (R11, R185) -/

theorem getD_eq_some {α : Type} {l : List (Option α)} {g : Nat} {n : α} : l.getD g none = some n ↔ l[g]? = some (some n) := by
  rw [List.getD_eq_getElem?_getD]
  cases l[g]? <;> simp

/-- The largest recorded count of a run of segments is a bound, and 0 or one of them. -/
theorem largestErases_spec (headers : List (Option Nat)) {lo hi : Nat} (hh : hi < 34) :
    (∀ x n : Nat, lo ≤ x → x ≤ hi → headers[x]? = some (some n) → n ≤ largestErases headers lo hi) ∧
      (largestErases headers lo hi = 0 ∨ ∃ x, lo ≤ x ∧ x ≤ hi ∧ headers[x]? = some (some (largestErases headers lo hi))) := by
  have he : largestErases headers lo hi =
      (List.range 34).foldl (fun best g => max best (if lo ≤ g ∧ g ≤ hi then (headers.getD g none).getD 0 else 0)) 0 := by
    unfold largestErases
    refine congrArg (fun f => List.foldl f 0 (List.range 34)) (funext fun best => funext fun g => ?_)
    split
    · rfl
    · exact (Nat.max_zero best).symm
  obtain ⟨-, hle, hatt⟩ := foldl_max_spec (fun g => if lo ≤ g ∧ g ≤ hi then (headers.getD g none).getD 0 else 0) (List.range 34) 0
  rw [← he] at hle hatt
  refine ⟨fun x n h1 h2 hx => ?_, ?_⟩
  · have := hle x (List.mem_range.2 (Nat.lt_of_le_of_lt h2 hh))
    rwa [if_pos ⟨h1, h2⟩, getD_eq_some.2 hx] at this
  · obtain h0 | ⟨x, -, hx⟩ := hatt
    · exact .inl h0
    · split at hx
      · rename_i hr
        cases hg : headers.getD x none with
        | none =>
          rw [hg] at hx
          exact .inl hx.symm
        | some n =>
          rw [hg] at hx
          have hn : n = largestErases headers lo hi := hx
          exact .inr ⟨x, hr.1, hr.2, by rw [← hn]; exact getD_eq_some.1 hg⟩
      · exact .inl hx.symm

theorem erasesFromHeaders_stamped {headers : List (Option Nat)} {g n : Nat} (h : headers[g]? = some (some n)) :
    erasesFromHeaders headers g = n := by
  unfold erasesFromHeaders
  rw [getD_eq_some.2 h]

theorem erasesFromHeaders_unstamped {headers : List (Option Nat)} {g : Nat} (h : ∀ n : Nat, headers[g]? ≠ some (some n)) :
    erasesFromHeaders headers g = if g < 32 then largestErases headers 0 31 else largestErases headers 32 33 := by
  have hn : headers.getD g none = none := Option.eq_none_iff_forall_ne_some.2 fun n hx => h n (getD_eq_some.1 hx)
  unfold erasesFromHeaders
  rw [hn] <;> rfl

/-- The erase count of an unstamped segment is the largest of its bank class (R11). -/
theorem erasesFromHeaders_class {headers : List (Option Nat)} {g : Nat} (h : ∀ n : Nat, headers[g]? ≠ some (some n)) :
    (∀ x n : Nat, x < 34 → (x < 32 ↔ g < 32) → headers[x]? = some (some n) → n ≤ erasesFromHeaders headers g) ∧
      (erasesFromHeaders headers g = 0 ∨
        ∃ x : Nat, x < 34 ∧ (x < 32 ↔ g < 32) ∧ headers[x]? = some (some (erasesFromHeaders headers g))) := by
  rw [erasesFromHeaders_unstamped h]
  split
  · rename_i hg
    obtain ⟨h1, h2⟩ := largestErases_spec headers (lo := 0) (hi := 31) (by decide)
    refine ⟨fun x n _ hx => h1 x n (Nat.zero_le x) (Nat.le_of_lt_succ (hx.2 hg)), h2.imp id ?_⟩
    rintro ⟨x, -, hx, hn⟩
    exact ⟨x, by omega, iff_of_true (by omega) hg, hn⟩
  · rename_i hg
    obtain ⟨h1, h2⟩ := largestErases_spec headers (lo := 32) (hi := 33) (by decide)
    refine ⟨fun x n hx hc => h1 x n (by omega) (by omega), h2.imp id ?_⟩
    rintro ⟨x, hl, hx, hn⟩
    exact ⟨x, by omega, iff_of_false (by omega) hg, hn⟩

theorem setAllErases_eq (s : State) (headers : List (Option Nat)) :
    s.setAllErases headers = s.setSegs (fun v g => { v with erases := some (erasesFromHeaders headers g) }) (List.range 34) := rfl

/-! ## The scans (R185, R186) -/

theorem mountReading_header {s : State} {m : Mount} (h : s.op = .mount m) (hp : m.phase = .headerScan)
    (he : s.engineReads (.header m.headers.length) = true) : s.mountReading .headerScan = some (m, .header m.headers.length) := by
  unfold State.mountReading
  rw [h]
  dsimp only
  rw [hp]
  exact if_pos ⟨rfl, he⟩

theorem mountReading_slot {s : State} {m : Mount} (h : s.op = .mount m) (hp : m.phase = .slotScan)
    (he : s.engineReads (.slot m.scan) = true) : s.mountReading .slotScan = some (m, .slot m.scan) := by
  unfold State.mountReading
  rw [h]
  dsimp only
  rw [hp]
  exact if_pos ⟨rfl, he⟩

theorem headerScanned_eq (s : State) (m : Mount) (r : Option Nat) : s.headerScanned m r =
    let m1 : Mount := { m with headers := m.headers ++ [r] }
    if m.headers.length + 1 < 34 then ({ s with op := .mount m1 } : State).claimRead (.header (m.headers.length + 1))
    else
      match (List.range 34).find? (fun g => (m1.headers.getD g none).isSome) with
      | some g =>
        ({ s.setAllErases m1.headers with op := .mount { m1 with phase := .slotScan, scan := ⟨g, 0⟩ } } : State).claimRead (.slot ⟨g, 0⟩)
      | none => (s.setAllErases m1.headers).resolve m1 := by
  have hl : ({ m with headers := m.headers ++ [r] } : Mount).headers.length = m.headers.length + 1 := List.length_append
  have hn : ∀ m1 : Mount, m1.nextStamped 0 = (List.range 34).find? (fun g => (m1.headers.getD g none).isSome) := by
    intro m1
    unfold Mount.nextStamped
    refine congrArg (fun f => List.find? f (List.range 34)) (funext fun g => ?_)
    rw [decide_eq_true (Nat.zero_le g)]
    rfl
  unfold State.headerScanned State.beginSlotScan
  dsimp only
  rw [hn, hl]
  rfl

theorem slotScanned_eq (s : State) (m : Mount) : s.slotScanned m =
    if m.scan.slot + 1 < (if m.scan.seg < 32 then 64 else 16) then
      ({ s with op := .mount { m with scan := ⟨m.scan.seg, m.scan.slot + 1⟩ } } : State).claimRead (.slot ⟨m.scan.seg, m.scan.slot + 1⟩)
    else
      match (List.range 34).find? (fun g => decide (m.scan.seg + 1 ≤ g) && (m.headers.getD g none).isSome) with
      | some g => ({ s with op := .mount { m with scan := ⟨g, 0⟩ } } : State).claimRead (.slot ⟨g, 0⟩)
      | none => s.resolve m := by
  have hs : slotsOf m.scan.seg = if m.scan.seg < 32 then 64 else 16 := rfl
  have hn : m.nextStamped (m.scan.seg + 1) =
      (List.range 34).find? (fun g => decide (m.scan.seg + 1 ≤ g) && (m.headers.getD g none).isSome) := rfl
  unfold State.slotScanned Mount.scanAfter
  rw [hs, ← hn]
  by_cases hx : m.scan.slot + 1 < if m.scan.seg < 32 then 64 else 16
  · rw [if_pos hx, if_pos hx]
  · rw [if_neg hx, if_neg hx]
    cases m.nextStamped (m.scan.seg + 1) <;> rfl

theorem recorded_eq (s : State) (m : Mount) (lost : Bool) : m.recorded s lost =
    if m.scan.seg < 32 then
      { m with slots := tablePut .blank (slotKey m.scan) (recordOfRead (s.readSlotResult m.scan lost)) m.slots }
    else { m with cfgSlots := tablePut .blank (cfgKey m.scan) (readCfgCells (s.store.cfgSlot m.scan) lost) m.cfgSlots } := rfl

theorem recorded_scan (s : State) (m : Mount) (lost : Bool) :
    (m.recorded s lost).scan = m.scan ∧ (m.recorded s lost).headers = m.headers := by
  rw [recorded_eq]
  split <;> exact ⟨rfl, rfl⟩

theorem ConfigRecord.allowed_iff (c : ConfigRecord) : c.allowed = true ↔
    c.station ≤ 65534 ∧ 1 ≤ c.holdLimit ∧ c.holdLimit ≤ 255 ∧ 1 ≤ c.guardLow ∧ c.guardLow ≤ 4095 ∧ c.guardHigh ≤ 4095 := by
  have hs : decide (c.station < Config.broadcastStation) = true ↔ c.station ≤ 65534 := decide_eq_true_iff.trans Nat.lt_succ_iff
  have hl : decide (c.guardLow ≤ Config.maxChannel) = true ↔ c.guardLow ≤ 4095 := decide_eq_true_iff
  have hh : decide (c.guardHigh ≤ Config.maxChannel) = true ↔ c.guardHigh ≤ 4095 := decide_eq_true_iff
  simp only [ConfigRecord.allowed, Bool.and_eq_true, hs, hl, hh, decide_eq_true_eq, and_assoc]

theorem readCfgCells_live (n : Nat) (c : ConfigRecord) : readCfgCells (.live n c) false =
    if 1 ≤ n ∧ n ≤ 4294967294 ∧ c.station ≤ 65534 ∧ 1 ≤ c.holdLimit ∧ c.holdLimit ≤ 255 ∧ 1 ≤ c.guardLow ∧ c.guardLow ≤ 4095 ∧
        c.guardHigh ≤ 4095 then .live n c
    else .indeterminate := by
  have h : readCfgCells (.live n c) false = if (issueInRange n && c.allowed) = true then .live n c else .indeterminate := rfl
  rw [h]
  exact ite_congr_of_iff (by rw [Bool.and_eq_true, issueInRange_iff, ConfigRecord.allowed_iff, and_assoc]) rfl rfl

/-- Settles O57. -/
theorem mountScansHeadersThenSlots : Obligations.MountScansHeadersThenSlots := by
  unfold Obligations.MountScansHeadersThenSlots
  refine ⟨⟨rfl, rfl, rfl, fun _ => rfl⟩, ⟨fun _ => rfl, rfl, rfl, rfl, readCfgCells_live⟩, fun s headers hc => ⟨?_, fun g hg => ?_, fun g hg => ?_⟩,
    fun s m lost ho hp he => ?_, fun s m lost ho hp he => ?_⟩
  · rw [setAllErases_eq]
    exact setSegs_segs ..
  · rw [setAllErases_eq, seg_setSegs_range hc, if_neg (Nat.not_lt.2 hg)]
  · refine ⟨erasesFromHeaders headers g, ?_, fun n => erasesFromHeaders_stamped, erasesFromHeaders_class⟩
    rw [setAllErases_eq, seg_setSegs_range hc, if_pos hg]
  · intro r m1 u
    have hr : readHeader (s.store.header m.headers.length) lost = r := rfl
    simp only [exec, execHeaderReadCompletion, mountReading_header ho hp he, hr]
    exact congrArg (fun t : State => Host.Outcome.next t.settle) (headerScanned_eq u m r)
  · intro u m1
    have hm : m.recorded s lost = m1 := recorded_eq s m lost
    obtain ⟨hscan, hhead⟩ : m1.scan = m.scan ∧ m1.headers = m.headers := hm ▸ recorded_scan s m lost
    simp only [exec, execSlotScanReadCompletion, mountReading_slot ho hp he, hm]
    refine (congrArg (fun t : State => Host.Outcome.next t.settle) (slotScanned_eq u m1)).trans ?_
    rw [hscan, hhead] <;> rfl

end Sys2Proof.Machine
end

section
/-! PROOF. RESOLVE: seals, candidates, winners, positions and the issue counter (R28, R45, R46, R187, R188, R189). -/

namespace Sys2Proof.Machine

open Sys2Proof

/-! ## Seals and candidates (R187) -/

theorem sealsKey_iff (key issue k : Nat) (v : Slot) : sealsKey key issue (k, v) = true ↔
    ∃ c : Nat, v = .written ⟨.live, issue, .seal c⟩ ∧ k / 64 = key / 64 ∧ key < k ∧ k ≤ key + c := by
  constructor
  · intro h
    unfold sealsKey at h
    dsimp only at h
    split at h
    · rename_i i c
      simp only [Bool.and_eq_true, decide_eq_true_eq] at h
      obtain ⟨⟨⟨h1, h2⟩, h3⟩, rfl⟩ := h
      exact ⟨c, rfl, h1, h2, h3⟩
    · cases h
  · rintro ⟨c, rfl, h1, h2, h3⟩
    simp only [sealsKey, Bool.and_eq_true, decide_eq_true_eq]
    exact ⟨⟨⟨h1, h2⟩, h3⟩, trivial⟩

theorem sealedBy_iff {slots : Table Slot} (h : tableWf .blank slots = true) (k n : Nat) : sealedBy slots k n = true ↔
    ∃ k' c : Nat, tableGet .blank slots k' = .written ⟨.live, n, .seal c⟩ ∧ k' / 64 = k / 64 ∧ k < k' ∧ k' ≤ k + c := by
  unfold sealedBy
  rw [List.any_eq_true]
  constructor
  · rintro ⟨⟨k', v⟩, hm, hs⟩
    obtain ⟨c, rfl, hr⟩ := (sealsKey_iff ..).1 hs
    exact ⟨k', c, ((mem_table_iff h k' _).1 hm).2, hr⟩
  · rintro ⟨k', c, hg, hr⟩
    exact ⟨(k', _), (mem_table_iff h k' _).2 ⟨by simp, hg⟩, (sealsKey_iff ..).2 ⟨c, rfl, hr⟩⟩

/-- The entry recorded at a key is a candidate: sealed and not RETIRED (R187). -/
def candidateAt (slots : Table Slot) (k n : Nat) (st : RecState) (e : Entry) : Prop :=
  tableGet .blank slots k = .written ⟨st, n, .entry e⟩ ∧ st ≠ .retired ∧ sealedBy slots k n = true

theorem slotKey_slotOfKey (k : Nat) : slotKey (slotOfKey k) = k :=
  Nat.div_add_mod k 64

theorem candidateOf_eq_some {slots : Table Slot} {k : Nat} {v : Slot} {c : Candidate} : candidateOf slots (k, v) = some c ↔
    ∃ (n : Nat) (st : RecState) (e : Entry), v = .written ⟨st, n, .entry e⟩ ∧ st ≠ .retired ∧ sealedBy slots k n = true ∧
      c = ⟨e.channel, slotOfKey k, n, e.isRoute, decide (st = .live)⟩ := by
  constructor
  · intro h
    unfold candidateOf at h
    dsimp only at h
    split at h
    · rename_i st n e
      rw [Option.ite_none_right_eq_some] at h
      obtain ⟨⟨h1, h2⟩, h3⟩ := h
      exact ⟨n, st, e, rfl, h1, h2, (Option.some.inj h3).symm⟩
    · cases h
  · rintro ⟨n, st, e, rfl, h1, h2, rfl⟩
    exact if_pos ⟨h1, h2⟩

/-- The candidates that RESOLVE forms (R187). -/
def Mount.candidates (m : Mount) : List Candidate :=
  m.slots.filterMap (candidateOf m.slots)

theorem mem_candidates {m : Mount} (h : tableWf .blank m.slots = true) (c : Candidate) : c ∈ m.candidates ↔
    ∃ (k n : Nat) (st : RecState) (e : Entry), candidateAt m.slots k n st e ∧
      c = ⟨e.channel, slotOfKey k, n, e.isRoute, decide (st = .live)⟩ := by
  unfold Mount.candidates candidateAt
  rw [List.mem_filterMap]
  constructor
  · rintro ⟨⟨k, v⟩, hm, hc⟩
    obtain ⟨n, st, e, rfl, h1, h2, rfl⟩ := candidateOf_eq_some.1 hc
    exact ⟨k, n, st, e, ⟨((mem_table_iff h k _).1 hm).2, h1, h2⟩, rfl⟩
  · rintro ⟨k, n, st, e, ⟨hg, h1, h2⟩, rfl⟩
    exact ⟨(k, _), (mem_table_iff h k _).2 ⟨by simp, hg⟩, candidateOf_eq_some.2 ⟨n, st, e, rfl, h1, h2, rfl⟩⟩

/-! ## Winners (R188) -/

/-- The better of the best so far and a further one: that of the larger number, the first when they are equal. -/
def better {α : Type} (num : α → Nat) (best : Option α) (x : α) : Option α :=
  match best with
  | none => some x
  | some b => if num b < num x then some x else some b

theorem better_some {α : Type} (num : α → Nat) (b x : α) :
    ∃ y, better num (some b) x = some y ∧ (y = b ∨ y = x) ∧ num b ≤ num y ∧ num x ≤ num y := by
  unfold better
  dsimp only
  split
  · rename_i h
    exact ⟨x, rfl, .inr rfl, Nat.le_of_lt h, Nat.le_refl _⟩
  · rename_i h
    exact ⟨b, rfl, .inl rfl, Nat.le_refl _, Nat.le_of_not_lt h⟩

theorem foldl_better_some {α : Type} (num : α → Nat) (l : List α) (b : α) : ∃ w, l.foldl (better num) (some b) = some w ∧
    w ∈ b :: l ∧ ∀ c ∈ b :: l, num c ≤ num w := by
  induction l generalizing b with
  | nil => exact ⟨b, rfl, List.mem_cons_self, fun c hc => Nat.le_of_eq (congrArg num (List.mem_singleton.1 hc))⟩
  | cons x l ih =>
    obtain ⟨y, hy, hor, hb, hx⟩ := better_some num b x
    obtain ⟨w, hw, hm, hl⟩ := ih y
    refine ⟨w, by rw [List.foldl_cons, hy, hw], ?_, fun c hc => ?_⟩
    · obtain rfl | hm := List.mem_cons.1 hm
      · obtain rfl | rfl := hor
        · exact List.mem_cons_self
        · exact List.mem_cons_of_mem _ List.mem_cons_self
      · exact List.mem_cons_of_mem _ (List.mem_cons_of_mem _ hm)
    · have hyw := hl y List.mem_cons_self
      obtain rfl | hc := List.mem_cons.1 hc
      · exact Nat.le_trans hb hyw
      · obtain rfl | hc := List.mem_cons.1 hc
        · exact Nat.le_trans hx hyw
        · exact hl c (List.mem_cons_of_mem _ hc)

/-- The best of a list: there is one unless the list is empty, and it has the largest number. -/
theorem foldl_better_spec {α : Type} (num : α → Nat) (l : List α) :
    (l = [] ∧ l.foldl (better num) none = none) ∨ ∃ w ∈ l, l.foldl (better num) none = some w ∧ ∀ c ∈ l, num c ≤ num w := by
  cases l with
  | nil => exact .inl ⟨rfl, rfl⟩
  | cons x l =>
    obtain ⟨w, hw, hm, hle⟩ := foldl_better_some num l x
    exact .inr ⟨w, hm, hw, hle⟩

theorem higherIssue_eq : higherIssue = better Candidate.issue := by
  funext best c
  cases best <;> rfl

theorem mem_ofChannel {cands : List Candidate} {ch : Nat} {c : Candidate} :
    c ∈ cands.filter (fun c => decide (c.channel = ch)) ↔ c ∈ cands ∧ c.channel = ch := by
  rw [List.mem_filter, decide_eq_true_iff]

/-- The winner of a channel has the highest issue number; there is one when the channel has a candidate. -/
theorem winnerOf_spec (cands : List Candidate) (ch : Nat) :
    (winnerOf cands ch = none ∧ ∀ c ∈ cands, c.channel ≠ ch) ∨
      ∃ w, winnerOf cands ch = some w ∧ w ∈ cands ∧ w.channel = ch ∧ ∀ c ∈ cands, c.channel = ch → c.issue ≤ w.issue := by
  have he : winnerOf cands ch = (cands.filter (fun c => decide (c.channel = ch))).foldl (better Candidate.issue) none := by
    rw [← higherIssue_eq]
    rfl
  obtain ⟨hl, hn⟩ | ⟨w, hm, hw, hle⟩ := foldl_better_spec Candidate.issue (cands.filter (fun c => decide (c.channel = ch)))
  · refine .inl ⟨he.trans hn, fun c hc hch => ?_⟩
    have := mem_ofChannel.2 ⟨hc, hch⟩
    rw [hl] at this
    exact List.not_mem_nil this
  · exact .inr ⟨w, he.trans hw, (mem_ofChannel.1 hm).1, (mem_ofChannel.1 hm).2, fun c hc hch => hle c (mem_ofChannel.2 ⟨hc, hch⟩)⟩

theorem winnerOf_eq_none (cands : List Candidate) (ch : Nat) : winnerOf cands ch = none ↔ ∀ c ∈ cands, c.channel ≠ ch := by
  obtain ⟨hn, h⟩ | ⟨w, hw, hm, hch, -⟩ := winnerOf_spec cands ch
  · exact iff_of_true hn h
  · exact iff_of_false (by rw [hw]; exact Option.some_ne_none w) fun h => h w hm hch

theorem winnerOf_some {cands : List Candidate} {ch : Nat} {w : Candidate} (h : winnerOf cands ch = some w) :
    w ∈ cands ∧ w.channel = ch ∧ ∀ c ∈ cands, c.channel = ch → c.issue ≤ w.issue := by
  obtain ⟨hn, -⟩ | ⟨w', hw, hs⟩ := winnerOf_spec cands ch
  · rw [hn] at h
    cases h
  · rw [hw] at h
    cases h
    exact hs

theorem positionOf_eq (cands : List Candidate) (ch : Nat) : positionOf cands ch =
    match winnerOf cands ch with
    | some w => if w.isRoute = true then some w.addr else none
    | none => none := rfl

/-! ## The channels that have candidates -/

theorem mem_insertChannel (c x : Nat) (l : List Nat) : x ∈ insertChannel c l ↔ x = c ∨ x ∈ l := by
  induction l with
  | nil => simp [insertChannel]
  | cons y l ih =>
    unfold insertChannel
    split
    · exact List.mem_cons
    · split
      · rename_i e
        subst e
        exact ⟨.inr, fun h => h.elim (fun e => e ▸ List.mem_cons_self) id⟩
      · rw [List.mem_cons, List.mem_cons, ih]
        exact or_left_comm

theorem insertChannel_rises {l : List Nat} (c : Nat) (h : l.Pairwise (· < ·)) : (insertChannel c l).Pairwise (· < ·) := by
  induction l with
  | nil => exact List.pairwise_singleton _ _
  | cons y l ih =>
    obtain ⟨hy, hl⟩ := List.pairwise_cons.1 h
    unfold insertChannel
    split
    · rename_i hlt
      exact List.pairwise_cons.2 ⟨fun x hx => (List.mem_cons.1 hx).elim (fun e => e ▸ hlt) fun hx => Nat.lt_trans hlt (hy x hx), h⟩
    · split
      · exact h
      · rename_i hlt hne
        refine List.pairwise_cons.2 ⟨fun x hx => ?_, ih hl⟩
        obtain rfl | hx := (mem_insertChannel ..).1 hx
        · omega
        · exact hy x hx

theorem mem_channelsOf (cands : List Candidate) (ch : Nat) : ch ∈ channelsOf cands ↔ ∃ c ∈ cands, c.channel = ch := by
  unfold channelsOf
  induction cands with
  | nil => simp
  | cons c cands ih =>
    rw [List.foldr_cons, mem_insertChannel, ih, eq_comm]
    simp only [List.mem_cons, exists_eq_or_imp]

theorem channelsOf_rises (cands : List Candidate) : (channelsOf cands).Pairwise (· < ·) := by
  unfold channelsOf
  induction cands with
  | nil => exact .nil
  | cons c cands ih => exact insertChannel_rises _ ih

/-! ## The index and the issue counter (R28, R46, R189) -/

theorem tableGet_foldl_put {α : Type} [DecidableEq α] {d : α} (f : Nat → α) (l : List Nat) {t : Table α} (h : tableWf d t = true) (x : Nat) :
    tableGet d (l.foldl (fun acc ch => tablePut d ch (f ch) acc) t) x = if x ∈ l then f x else tableGet d t x := by
  induction l generalizing t with
  | nil => rfl
  | cons y l ih =>
    rw [List.foldl_cons, ih (tablePut_wf _ _ h), tableGet_tablePut _ _ _ h]
    by_cases hx : x ∈ l
    · rw [if_pos hx, if_pos (List.mem_cons_of_mem _ hx)]
    · rw [if_neg hx]
      refine ite_congr (by rw [List.mem_cons, or_iff_left hx]) (fun e => ?_) fun _ => rfl
      obtain rfl | e := List.mem_cons.1 e
      · rfl
      · exact absurd e hx

theorem position_indexFrom (cands : List Candidate) (ch : Nat) : tableGet none (indexFrom cands) ch = positionOf cands ch := by
  unfold indexFrom
  rw [tableGet_foldl_put (positionOf cands) _ rfl]
  split
  · rfl
  · rename_i h
    have hn : winnerOf cands ch = none :=
      (winnerOf_eq_none ..).2 fun c hc hch => h ((mem_channelsOf ..).2 ⟨c, hc, hch⟩)
    rw [positionOf_eq, hn] <;> rfl

theorem enter_eq (s : State) (m : Mount) : s.enter m =
    { s.setSegs (fun v g => { v with inUse := some (m.inUse g) }) (List.range 32) with
      op := .idle
      opState := match s.config.values.startMode with | .run => .running | .bypass => .bypass } := rfl

/-- The state to which RESOLVE brings the unit before REPAIR begins. -/
def State.resolved (s : State) (m : Mount) : State :=
  { s.setAllSegments m with index := indexFrom m.candidates, issue := some m.issueCounter, config := m.inForce }

/-- The working state with which REPAIR begins. -/
def Mount.toRepair (m : Mount) : Mount :=
  { m with phase := .repair, cands := m.candidates, repairs := m.repairList m.candidates }

theorem resolve_eq (s : State) (m : Mount) : s.resolve m = (s.resolved m).nextRepair m.toRepair := rfl

/-- REPAIR's beginning leaves the index, the issue counter, the configuration and the segment values, but for the in-use counts. -/
theorem nextRepair_keeps (s : State) (m : Mount) : (s.nextRepair m).index = s.index ∧ (s.nextRepair m).issue = s.issue ∧
    (s.nextRepair m).config = s.config ∧
    ((s.nextRepair m).segs = s.segs ∨
      (s.nextRepair m).segs = (s.setSegs (fun v g => { v with inUse := some (m.inUse g) }) (List.range 32)).segs) := by
  unfold State.nextRepair
  split
  · have h := sameOutside_claimProgram { s with op := .mount m }
    exact ⟨(h _).index, (h _).issue, (h _).config, .inl (h _).segs⟩
  · have h := setSegs_segs s (fun v g => { v with inUse := some (m.inUse g) }) (List.range 32)
    refine ⟨?_, ?_, ?_, .inr (by rw [enter_eq])⟩
    · rw [enter_eq, h]
    · rw [enter_eq, h]
    · rw [enter_eq, h]

theorem position_resolve (s : State) (m : Mount) (ch : Nat) : (s.resolve m).position ch = positionOf m.candidates ch := by
  rw [resolve_eq, ← position_indexFrom]
  exact position_of_index (nextRepair_keeps (s.resolved m) m.toRepair).1 ch

theorem issue_resolve (s : State) (m : Mount) : (s.resolve m).issue = some m.issueCounter := by
  rw [resolve_eq, (nextRepair_keeps (s.resolved m) m.toRepair).2.1]
  rfl

theorem recordedIssue_le_iff (v : Slot) (c : Nat) : recordedIssue v ≤ c ↔ ∀ r : SlotRecord, v = .written r → r.issue ≤ c := by
  cases v <;> simp [recordedIssue]

theorem recordedCfgIssue_le_iff (v : CfgSlot) (c : Nat) :
    recordedCfgIssue v ≤ c ↔ ∀ (n : Nat) (x : ConfigRecord), v = .live n x → n ≤ c := by
  cases v <;> simp [recordedCfgIssue]

/-- The issue counter is one above the largest recorded issue number, or 1 (R46, R189). -/
theorem issueCounter_spec {m : Mount} (h1 : tableWf .blank m.slots = true) (h2 : tableWf .blank m.cfgSlots = true) :
    ∃ c : Nat, m.issueCounter = c + 1 ∧
      (∀ (k : Nat) (r : SlotRecord), tableGet .blank m.slots k = .written r → r.issue ≤ c) ∧
      (∀ (k n : Nat) (v : ConfigRecord), tableGet .blank m.cfgSlots k = .live n v → n ≤ c) ∧
      (c = 0 ∨ (∃ (k : Nat) (r : SlotRecord), tableGet .blank m.slots k = .written r ∧ r.issue = c) ∨
        ∃ (k : Nat) (v : ConfigRecord), tableGet .blank m.cfgSlots k = .live c v) := by
  obtain ⟨-, ha, ha'⟩ := foldl_max_spec (fun kv : Nat × Slot => recordedIssue kv.2) m.slots 0
  obtain ⟨-, hb, hb'⟩ := foldl_max_spec (fun kv : Nat × CfgSlot => recordedCfgIssue kv.2) m.cfgSlots 0
  have hc : m.issueCounter = max (m.slots.foldl (fun acc kv => max acc (recordedIssue kv.2)) 0)
    (m.cfgSlots.foldl (fun acc kv => max acc (recordedCfgIssue kv.2)) 0) + 1 := rfl
  revert hc ha ha' hb hb'
  generalize m.slots.foldl (fun acc kv => max acc (recordedIssue kv.2)) 0 = a
  generalize m.cfgSlots.foldl (fun acc kv => max acc (recordedCfgIssue kv.2)) 0 = b
  intro ha ha' hb hb' hc
  refine ⟨max a b, hc, fun k r hk => ?_, fun k n v hk => ?_, ?_⟩
  · have := ha (k, _) ((mem_table_iff h1 k _).2 ⟨by simp, hk⟩)
    exact Nat.le_trans ((recordedIssue_le_iff ..).1 this r rfl) (Nat.le_max_left ..)
  · have := hb (k, _) ((mem_table_iff h2 k _).2 ⟨by simp, hk⟩)
    exact Nat.le_trans ((recordedCfgIssue_le_iff ..).1 this n v rfl) (Nat.le_max_right ..)
  · obtain hm | hm := Nat.le_total b a
    · rw [Nat.max_eq_left hm]
      obtain h0 | ⟨⟨k, v⟩, hkv, hv⟩ := ha'
      · exact .inl h0
      · cases v with
        | written r => exact .inr (.inl ⟨k, r, ((mem_table_iff h1 k _).1 hkv).2, hv⟩)
        | _ => exact .inl hv.symm
    · rw [Nat.max_eq_right hm]
      obtain h0 | ⟨⟨k, v⟩, hkv, hv⟩ := hb'
      · exact .inl h0
      · cases v with
        | live n x =>
          have hn : n = b := hv
          exact .inr (.inr ⟨k, x, hn ▸ ((mem_table_iff h2 k _).1 hkv).2⟩)
        | _ => exact .inl hv.symm

/-- Settles O58. -/
theorem resolveGivesAChannelItsNewestSealedRoute : Obligations.ResolveGivesAChannelItsNewestSealedRoute := by
  unfold Obligations.ResolveGivesAChannelItsNewestSealedRoute
  refine ⟨fun slots k n h => sealedBy_iff h k n, fun s m h1 h2 => ?_⟩
  intro candidate
  have mem_of : ∀ {k n : Nat} {e : Entry}, candidate k n e → ∃ c ∈ m.candidates, c.channel = e.channel ∧ c.issue = n ∧ c.isRoute = e.isRoute := by
    rintro k n e ⟨st, hc⟩
    exact ⟨_, (mem_candidates h1 _).2 ⟨k, n, st, e, hc, rfl⟩, rfl, rfl, rfl⟩
  refine ⟨fun ch a ha => ?_, fun ch hp k n f hc => ?_, ?_⟩
  · rw [position_resolve, positionOf_eq] at ha
    cases hw : winnerOf m.candidates ch with
    | none =>
      rw [hw] at ha
      cases ha
    | some w =>
      rw [hw] at ha
      obtain ⟨hr, rfl⟩ := (Option.ite_none_right_eq_some.1 ha).imp_right Option.some.inj
      obtain ⟨hm, hch, hle⟩ := winnerOf_some hw
      obtain ⟨k, n, st, e, hc, rfl⟩ := (mem_candidates h1 w).1 hm
      obtain ⟨f, hf⟩ := (Entry.isRoute_iff e).1 hr
      obtain ⟨ech, ek⟩ := e
      cases hf
      cases hch
      refine ⟨n, f, ⟨st, by rw [slotKey_slotOfKey]; exact hc⟩, fun k' n' e' hc' he' => ?_⟩
      obtain ⟨c, hm', hch', rfl, -⟩ := mem_of hc'
      exact hle c hm' (hch'.trans he')
  · obtain ⟨c, hcm, hcch, rfl, -⟩ := mem_of hc
    rw [position_resolve, positionOf_eq] at hp
    cases hw : winnerOf m.candidates ch with
    | none => exact absurd hcch ((winnerOf_eq_none ..).1 hw c hcm)
    | some w =>
      rw [hw] at hp
      obtain ⟨hm, hch, hle⟩ := winnerOf_some hw
      obtain ⟨k', n', st', ⟨ech, ek⟩, hc', rfl⟩ := (mem_candidates h1 w).1 hm
      cases hch
      cases ek with
      | route f' => cases hp
      | withdraw => exact ⟨k', n', ⟨st', hc'⟩, hle c hcm hcch⟩
  · obtain ⟨c, hc, hr, hv, hatt⟩ := issueCounter_spec h1 h2
    exact ⟨c, (issue_resolve s m).trans (congrArg some hc), hr, hv, hatt⟩

end Sys2Proof.Machine
end

section
/-! PROOF. RESOLVE: the segments, the configuration in force and the repair list (R17, R163, R187, R188, R190 to R192). -/

namespace Sys2Proof.Machine

open Sys2Proof

/-! ## The keys of a table rise -/

theorem keys_rise {α : Type} [DecidableEq α] {d : α} {t : Table α} {lo : Nat} (h : tableRisesFrom d lo t = true) :
    (∀ kv ∈ t, lo ≤ kv.1) ∧ t.Pairwise (fun a b => a.1 < b.1) := by
  induction t generalizing lo with
  | nil => exact ⟨fun kv hkv => absurd hkv List.not_mem_nil, .nil⟩
  | cons kv t ih =>
    obtain ⟨k, v⟩ := kv
    simp only [tableRisesFrom, Bool.and_eq_true, decide_eq_true_eq] at h
    obtain ⟨⟨hlo, -⟩, ht⟩ := h
    obtain ⟨hge, hp⟩ := ih ht
    refine ⟨fun kv hkv => ?_, List.pairwise_cons.2 ⟨fun x hx => hge x hx, hp⟩⟩
    obtain rfl | hkv := List.mem_cons.1 hkv
    · exact hlo
    · exact Nat.le_trans hlo (Nat.le_of_succ_le (hge kv hkv))

/-- What a rising table gives up in order has rising keys. -/
theorem filterMap_keys_rise {α β : Type} [DecidableEq α] {d : α} {t : Table α} (h : tableWf d t = true) {f : Nat × α → Option β}
    {key : β → Nat} (hk : ∀ kv b, f kv = some b → key b = kv.1) : ((t.filterMap f).map key).Pairwise (· < ·) := by
  rw [List.pairwise_map, List.pairwise_filterMap]
  refine (keys_rise h).2.imp fun {a a'} ha b hb b' hb' => ?_
  rw [hk a b hb, hk a' b' hb']
  exact ha

/-! ## Fill pointers (R17) -/

/-- After the keys of a rising table: the start value, or the offset after the last key of the segment. -/
theorem fillFold_spec {α : Type} (size index : Nat) {t : Table α} (h : t.Pairwise (fun a b => a.1 < b.1)) (b : Nat) :
    let r := t.foldl (fun acc kv => if kv.1 / size = index then kv.1 % size + 1 else acc) b
    (r = b ∧ ∀ kv ∈ t, kv.1 / size ≠ index) ∨
      ∃ kv ∈ t, kv.1 / size = index ∧ r = kv.1 % size + 1 ∧ ∀ kv' ∈ t, kv'.1 / size = index → kv'.1 ≤ kv.1 := by
  induction t generalizing b with
  | nil => exact .inl ⟨rfl, fun kv hkv => absurd hkv List.not_mem_nil⟩
  | cons x t ih =>
    obtain ⟨hx, ht⟩ := List.pairwise_cons.1 h
    obtain ⟨hr, hn⟩ | ⟨kv, hkv, hi, hr, hle⟩ := ih ht (if x.1 / size = index then x.1 % size + 1 else b)
    · by_cases e : x.1 / size = index
      · refine .inr ⟨x, List.mem_cons_self, e, hr.trans (if_pos e), fun kv' hkv' hi => ?_⟩
        obtain rfl | hkv' := List.mem_cons.1 hkv'
        · exact Nat.le_refl _
        · exact absurd hi (hn kv' hkv')
      · refine .inl ⟨hr.trans (if_neg e), fun kv' hkv' => ?_⟩
        obtain rfl | hkv' := List.mem_cons.1 hkv'
        · exact e
        · exact hn kv' hkv'
    · refine .inr ⟨kv, List.mem_cons_of_mem _ hkv, hi, hr, fun kv' hkv' hi' => ?_⟩
      obtain rfl | hkv' := List.mem_cons.1 hkv'
      · exact Nat.le_of_lt (hx kv hkv)
      · exact hle kv' hkv' hi'

/-- The fill pointer of a segment of `size` slots: the slot after the last one not BLANK. -/
theorem fillFrom_spec {α : Type} [DecidableEq α] {d : α} {t : Table α} (h : tableWf d t = true) {size : Nat} (hs : 0 < size) (index : Nat) :
    fillFrom t size index ≤ size ∧ (∀ x : Nat, fillFrom t size index ≤ x → x < size → tableGet d t (size * index + x) = d) ∧
      (fillFrom t size index = 0 ∨ tableGet d t (size * index + (fillFrom t size index - 1)) ≠ d) := by
  have in_seg : ∀ x, x < size → (size * index + x) / size = index ∧ (size * index + x) % size = x := fun x hx =>
    ⟨by rw [Nat.mul_add_div hs, Nat.div_eq_of_lt hx, Nat.add_zero], by rw [Nat.mul_add_mod, Nat.mod_eq_of_lt hx]⟩
  have listed : ∀ x, tableGet d t (size * index + x) ≠ d → (size * index + x, tableGet d t (size * index + x)) ∈ t :=
    fun x hx => (mem_table_iff h _ _).2 ⟨hx, rfl⟩
  obtain ⟨hr, hn⟩ | ⟨kv, hkv, hi, hr, hle⟩ := fillFold_spec size index (keys_rise h).2 0
  · have hf : fillFrom t size index = 0 := hr
    rw [hf]
    refine ⟨Nat.zero_le _, fun x _ hx => ?_, .inl rfl⟩
    refine Classical.byContradiction fun hne => ?_
    exact hn _ (listed x hne) (in_seg x hx).1
  · have hf : fillFrom t size index = kv.1 % size + 1 := hr
    have hk : size * index + kv.1 % size = kv.1 := by rw [← hi, Nat.div_add_mod]
    rw [hf]
    refine ⟨Nat.mod_lt _ hs, fun x hx hlt => ?_, .inr ?_⟩
    · refine Classical.byContradiction fun hne => ?_
      have := hle _ (listed x hne) (in_seg x hlt).1
      dsimp only at this
      omega
    · rw [Nat.add_sub_cancel, hk]
      exact (((mem_table_iff h kv.1 kv.2).1 hkv).2 ▸ ((mem_table_iff h kv.1 kv.2).1 hkv).1)

/-! ## The newest seal and the newest configuration record (R190, R191) -/

/-- A LIVE seal as recorded: its issue number and its segment. -/
def sealOf (kv : Nat × Slot) : Option (Nat × Nat) :=
  match kv.2 with
  | .written ⟨.live, issue, .seal _⟩ => some (issue, kv.1 / 64)
  | _ => none

/-- A LIVE configuration record as recorded, with its issue number and slot. -/
def configOf (kv : Nat × CfgSlot) : Option (ConfigSource × ConfigRecord) :=
  match kv.2 with
  | .live issue c => some (⟨issue, cfgSlotOfKey kv.1⟩, c)
  | _ => none

/-- A slot holds a LIVE seal of an issue number. -/
def liveSealAt (slots : Table Slot) (k n : Nat) : Prop :=
  ∃ c : Nat, tableGet .blank slots k = .written ⟨.live, n, .seal c⟩

theorem mem_seals {slots : Table Slot} (h : tableWf .blank slots = true) (n g : Nat) :
    (n, g) ∈ slots.filterMap sealOf ↔ ∃ k, liveSealAt slots k n ∧ k / 64 = g := by
  rw [List.mem_filterMap]
  constructor
  · rintro ⟨⟨k, v⟩, hm, hs⟩
    unfold sealOf at hs
    dsimp only at hs
    split at hs
    · rename_i i c
      cases hs
      exact ⟨k, ⟨c, ((mem_table_iff h k _).1 hm).2⟩, rfl⟩
    · cases hs
  · rintro ⟨k, ⟨c, hk⟩, rfl⟩
    exact ⟨(k, _), (mem_table_iff h k _).2 ⟨by simp, hk⟩, rfl⟩

theorem mem_configs {t : Table CfgSlot} (h : tableWf .blank t = true) (x : ConfigSource × ConfigRecord) :
    x ∈ t.filterMap configOf ↔ ∃ (k n : Nat) (v : ConfigRecord), tableGet .blank t k = .live n v ∧ x = (⟨n, cfgSlotOfKey k⟩, v) := by
  rw [List.mem_filterMap]
  constructor
  · rintro ⟨⟨k, w⟩, hm, hs⟩
    unfold configOf at hs
    dsimp only at hs
    split at hs
    · rename_i n v
      cases hs
      exact ⟨k, n, v, ((mem_table_iff h k _).1 hm).2, rfl⟩
    · cases hs
  · rintro ⟨k, n, v, hk, rfl⟩
    exact ⟨(k, _), (mem_table_iff h k _).2 ⟨by simp, hk⟩, rfl⟩

theorem foldl_higherSeal (slots : Table Slot) : slots.foldl higherSeal none = (slots.filterMap sealOf).foldl (better Prod.fst) none := by
  rw [List.foldl_filterMap]
  refine congrArg (fun f => List.foldl f none slots) (funext fun best => funext fun kv => ?_)
  obtain ⟨k, v⟩ := kv
  cases v with
  | written r =>
    obtain ⟨st, n, c⟩ := r
    cases st with
    | live => cases c <;> cases best <;> rfl
    | _ => rfl
  | _ => rfl

theorem foldl_higherConfig (t : Table CfgSlot) :
    t.foldl higherConfig none = (t.filterMap configOf).foldl (better fun x => x.1.issue) none := by
  rw [List.foldl_filterMap]
  refine congrArg (fun f => List.foldl f none t) (funext fun best => funext fun kv => ?_)
  obtain ⟨k, v⟩ := kv
  cases v with
  | live n c => cases best <;> rfl
  | _ => rfl

/-- The segment of the newest LIVE seal, if there is one (R190). -/
theorem sealSegment_spec {m : Mount} (h : tableWf .blank m.slots = true) :
    (m.sealSegment = none ∧ ∀ k n, ¬ liveSealAt m.slots k n) ∨
      ∃ k n, m.sealSegment = some (k / 64) ∧ liveSealAt m.slots k n ∧ ∀ k' n', liveSealAt m.slots k' n' → n' ≤ n := by
  have he : m.sealSegment = ((m.slots.filterMap sealOf).foldl (better Prod.fst) none).map Prod.snd := by
    rw [← foldl_higherSeal]
    rfl
  obtain ⟨hl, hn⟩ | ⟨⟨n, g⟩, hm, hw, hle⟩ := foldl_better_spec Prod.fst (m.slots.filterMap sealOf)
  · refine .inl ⟨by rw [he, hn]; rfl, fun k n hk => ?_⟩
    have := (mem_seals h n (k / 64)).2 ⟨k, hk, rfl⟩
    rw [hl] at this
    exact List.not_mem_nil this
  · obtain ⟨k, hk, rfl⟩ := (mem_seals h n g).1 hm
    exact .inr ⟨k, n, by rw [he, hw]; rfl, hk, fun k' n' hk' => hle (n', k' / 64) ((mem_seals h _ _).2 ⟨k', hk', rfl⟩)⟩

/-- The configuration in force is the newest LIVE record, or the defaults (R191). -/
theorem inForce_spec {m : Mount} (h : tableWf .blank m.cfgSlots = true) :
    (m.inForce = InForce.reset ∧ ∀ (k n : Nat) (v : ConfigRecord), tableGet .blank m.cfgSlots k ≠ .live n v) ∨
      ∃ (k n : Nat) (v : ConfigRecord), tableGet .blank m.cfgSlots k = .live n v ∧ m.inForce = ⟨v, some ⟨n, cfgSlotOfKey k⟩⟩ ∧
        ∀ (k' n' : Nat) (v' : ConfigRecord), tableGet .blank m.cfgSlots k' = .live n' v' → n' ≤ n := by
  obtain ⟨hl, hn⟩ | ⟨⟨src, v⟩, hm, hw, hle⟩ := foldl_better_spec (fun x : ConfigSource × ConfigRecord => x.1.issue)
    (m.cfgSlots.filterMap configOf)
  · refine .inl ⟨?_, fun k n v hk => ?_⟩
    · unfold Mount.inForce
      rw [foldl_higherConfig, hn]
    · have := (mem_configs h _).2 ⟨k, n, v, hk, rfl⟩
      rw [hl] at this
      exact List.not_mem_nil this
  · obtain ⟨k, n, v', hk, hx⟩ := (mem_configs h _).1 hm
    cases hx
    refine .inr ⟨k, n, v, hk, ?_, fun k' n' v' hk' => hle _ ((mem_configs h _).2 ⟨k', n', v', hk', rfl⟩)⟩
    unfold Mount.inForce
    rw [foldl_higherConfig, hw]

/-! ## The segment values after RESOLVE (R190, R191) -/

theorem setAllSegments_eq (s : State) (m : Mount) : s.setAllSegments m =
    s.setSegs (fun v g => { v with
      state := some (if g < Config.routeSegments then m.routeState g else m.cfgState g)
      fill := some (if m.stamped g then m.fill g else 0) }) (List.range 34) := rfl

theorem resolved_segs (s : State) (m : Mount) : s.resolved m =
    { s with segs := (s.resolved m).segs, index := (s.resolved m).index, issue := (s.resolved m).issue, config := (s.resolved m).config } := by
  have h : s.setAllSegments m = { s with segs := (s.setAllSegments m).segs } := by
    rw [setAllSegments_eq]
    exact setSegs_segs ..
  unfold State.resolved
  generalize s.setAllSegments m = u at h ⊢
  rw [h]

theorem canonical_resolved {s : State} (hc : s.canonical = true) (m : Mount) : (s.resolved m).canonical = true := by
  have hs : (s.setAllSegments m).canonical = true := by
    rw [setAllSegments_eq]
    exact canonical_setSegs hc _ _
  unfold State.resolved
  generalize s.setAllSegments m = u at hs ⊢
  rw [State.canonical_iff] at hs ⊢
  exact ⟨hs.1, indexFrom_wf _, hs.2.2⟩

theorem seg_of_segs {s t : State} (h : t.segs = s.segs) (g : Nat) : t.seg g = s.seg g :=
  congrArg (fun x => tableGet SegVol.noValue x g) h

/-- The value of a segment after RESOLVE, its in-use count aside. -/
theorem seg_resolve {s : State} (hc : s.canonical = true) (m : Mount) {g : Nat} (hg : g < 34) : ∃ n, (s.resolve m).seg g =
    { s.seg g with
      state := some (if g < 32 then m.routeState g else m.cfgState g)
      fill := some (if m.stamped g = true then m.fill g else 0)
      inUse := n } := by
  have hr : (s.resolved m).seg g =
      { s.seg g with
        state := some (if g < 32 then m.routeState g else m.cfgState g)
        fill := some (if m.stamped g = true then m.fill g else 0) } := by
    rw [seg_of_segs (s := s.setAllSegments m) (by rw [State.resolved]) g, setAllSegments_eq, seg_setSegs_range hc, if_pos hg]
    rfl
  rw [resolve_eq]
  obtain ⟨-, -, -, h | h⟩ := nextRepair_keeps (s.resolved m) m.toRepair
  · exact ⟨_, (seg_of_segs h g).trans hr⟩
  · rw [seg_of_segs h, seg_setSegs_range (canonical_resolved hc m), hr]
    split
    · exact ⟨_, rfl⟩
    · exact ⟨_, rfl⟩

theorem Mount.stamped_iff (m : Mount) (g : Nat) : m.stamped g = true ↔ ∃ e : Nat, m.headers[g]? = some (some e) := by
  unfold Mount.stamped
  rw [Option.isSome_iff_exists]
  simp only [getD_eq_some]

theorem routeState_stamped {m : Mount} {g : Nat} (h : m.stamped g = true) : m.routeState g =
    if m.fill g = 0 then .clean else if m.sealSegment = some g ∧ m.fill g < 64 then .opened else .filled := by
  unfold Mount.routeState
  rw [h]
  rfl

theorem routeState_unstamped {m : Mount} {g : Nat} (h : ¬ m.stamped g = true) : m.routeState g = .torn := by
  unfold Mount.routeState
  rw [Bool.eq_false_iff.2 h]
  rfl

theorem cfgState_stamped {m : Mount} {g : Nat} (h : m.stamped g = true) : m.cfgState g =
    if m.inForce.source.map (fun src => src.addr.seg) = some g then .opened else if m.fill g = 0 then .clean else .filled := by
  unfold Mount.cfgState
  rw [h]
  rfl

theorem cfgState_unstamped {m : Mount} {g : Nat} (h : ¬ m.stamped g = true) : m.cfgState g = .torn := by
  unfold Mount.cfgState
  rw [Bool.eq_false_iff.2 h]
  rfl

theorem routeState_clean_iff {m : Mount} {g : Nat} (h : m.stamped g = true) : m.routeState g = .clean ↔ m.fill g = 0 := by
  rw [routeState_stamped h]
  split
  · simp [*]
  · split <;> simp [*]

theorem routeState_opened_iff {m : Mount} {g : Nat} (h : m.stamped g = true) :
    m.routeState g = .opened ↔ m.fill g ≠ 0 ∧ m.sealSegment = some g ∧ m.fill g < 64 := by
  rw [routeState_stamped h]
  split
  · simp [*]
  · split <;> simp [*]

theorem fill_route {m : Mount} (h : tableWf .blank m.slots = true) {g : Nat} (hg : g < 32) :
    m.fill g ≤ 64 ∧ (∀ x : Nat, m.fill g ≤ x → x < 64 → tableGet .blank m.slots (64 * g + x) = .blank) ∧
      (m.fill g = 0 ∨ tableGet .blank m.slots (64 * g + (m.fill g - 1)) ≠ .blank) := by
  have hf : m.fill g = fillFrom m.slots 64 g := if_pos hg
  rw [hf]
  exact fillFrom_spec h (by decide) g

theorem fill_cfg {m : Mount} (h : tableWf .blank m.cfgSlots = true) (i : Nat) :
    m.fill (32 + i) ≤ 16 ∧ (∀ x : Nat, m.fill (32 + i) ≤ x → x < 16 → tableGet .blank m.cfgSlots (16 * i + x) = .blank) ∧
      (m.fill (32 + i) = 0 ∨ tableGet .blank m.cfgSlots (16 * i + (m.fill (32 + i) - 1)) ≠ .blank) := by
  have hf : m.fill (32 + i) = fillFrom m.cfgSlots 16 i := by
    refine (if_neg (Nat.not_lt.2 (Nat.le_add_right 32 i))).trans ?_
    rw [show 32 + i - Config.segCA = i from Nat.add_sub_cancel_left ..]
    rfl
  rw [hf]
  exact fillFrom_spec h (by decide) i

/-- An OPEN route segment holds the newest LIVE seal and is not full (R190). -/
theorem routeState_opened {m : Mount} (h : tableWf .blank m.slots = true) {g : Nat} (hs : m.stamped g = true) (ho : m.routeState g = .opened) :
    m.fill g < 64 ∧ ∃ x n : Nat, x < 64 ∧ liveSealAt m.slots (64 * g + x) n ∧ ∀ k n' : Nat, liveSealAt m.slots k n' → n' ≤ n := by
  obtain ⟨-, hseg, hlt⟩ := (routeState_opened_iff hs).1 ho
  refine ⟨hlt, ?_⟩
  obtain ⟨hn, -⟩ | ⟨k, n, hk, hl, hle⟩ := sealSegment_spec h
  · rw [hseg] at hn
    cases hn
  · rw [hseg] at hk
    have hg : 64 * g + k % 64 = k := by rw [Option.some.inj hk, Nat.div_add_mod]
    exact ⟨k % 64, n, Nat.mod_lt _ (by decide), by rw [hg]; exact hl, hle⟩

/-- The segment of the one newest LIVE seal is OPEN unless it is full (R190). -/
theorem routeState_of_seal {m : Mount} (h : tableWf .blank m.slots = true) {g x n : Nat} (hs : m.stamped g = true) (hg : g < 32)
    (hlt : m.fill g < 64) (hx : x < 64) (hl : liveSealAt m.slots (64 * g + x) n)
    (hu : ∀ k n' : Nat, k ≠ 64 * g + x → liveSealAt m.slots k n' → n' < n) : m.routeState g = .opened := by
  refine (routeState_opened_iff hs).2 ⟨fun h0 => ?_, ?_, hlt⟩
  · obtain ⟨c, hc⟩ := hl
    rw [(fill_route h hg).2.1 x (by omega) hx] at hc
    cases hc
  · obtain ⟨-, hn⟩ | ⟨k, n', hk, hl', hle⟩ := sealSegment_spec h
    · exact absurd hl (hn _ _)
    · by_cases e : k = 64 * g + x
      · rw [hk, e, Nat.mul_add_div (by decide), Nat.div_eq_of_lt hx, Nat.add_zero]
      · exact absurd (hle _ _ hl) (Nat.not_le.2 (hu k n' e hl'))

/-! ## The voids of the repair list (R187, R192) -/

theorem voidRepairOf_eq_some {slots : Table Slot} {k : Nat} {v : Slot} {r : Repair} : voidRepairOf slots (k, v) = some r ↔
    (v = .indeterminate ∧ r = ⟨slotOfKey k, .void, none, none, none⟩) ∨
      ∃ (n : Nat) (st : RecState) (e : Entry), v = .written ⟨st, n, .entry e⟩ ∧ st ≠ .retired ∧ sealedBy slots k n = false ∧
        r = ⟨slotOfKey k, .void, none, some e.channel, some n⟩ := by
  constructor
  · intro h
    unfold voidRepairOf at h
    dsimp only at h
    split at h
    · exact .inl ⟨rfl, (Option.some.inj h).symm⟩
    · rename_i st n e
      rw [Option.ite_none_right_eq_some] at h
      obtain ⟨⟨h1, h2⟩, h3⟩ := h
      exact .inr ⟨n, st, e, rfl, h1, Bool.eq_false_iff.2 h2, (Option.some.inj h3).symm⟩
    · cases h
  · rintro (⟨rfl, rfl⟩ | ⟨n, st, e, rfl, h1, h2, rfl⟩)
    · rfl
    · exact if_pos ⟨h1, Bool.eq_false_iff.1 h2⟩

theorem mem_voids {slots : Table Slot} (h : tableWf .blank slots = true) (r : Repair) : r ∈ slots.filterMap (voidRepairOf slots) ↔
    ∃ k : Nat, (tableGet .blank slots k = .indeterminate ∧ r = ⟨slotOfKey k, .void, none, none, none⟩) ∨
      ∃ (n : Nat) (st : RecState) (e : Entry), tableGet .blank slots k = .written ⟨st, n, .entry e⟩ ∧ st ≠ .retired ∧
        sealedBy slots k n = false ∧ r = ⟨slotOfKey k, .void, none, some e.channel, some n⟩ := by
  rw [List.mem_filterMap]
  constructor
  · rintro ⟨⟨k, v⟩, hm, hv⟩
    have hk := ((mem_table_iff h k v).1 hm).2
    exact ⟨k, (voidRepairOf_eq_some.1 hv).imp (fun x => ⟨hk.trans x.1, x.2⟩)
      fun ⟨n, st, e, hx, hr⟩ => ⟨n, st, e, hk.trans hx, hr⟩⟩
  · rintro ⟨k, hk⟩
    refine ⟨(k, tableGet .blank slots k), (mem_table_iff h k _).2 ⟨?_, rfl⟩, voidRepairOf_eq_some.2 hk⟩
    obtain ⟨hk, -⟩ | ⟨n, st, e, hk, -⟩ := hk
    · rw [hk]
      simp
    · rw [hk]
      simp

theorem voidRepairOf_key {slots : Table Slot} (kv : Nat × Slot) (r : Repair) (h : voidRepairOf slots kv = some r) :
    64 * r.addr.seg + r.addr.slot = kv.1 := by
  obtain ⟨-, rfl⟩ | ⟨n, st, e, -, -, -, rfl⟩ := voidRepairOf_eq_some.1 h
  · exact slotKey_slotOfKey kv.1
  · exact slotKey_slotOfKey kv.1

theorem cfgVoidRepairOf_eq_some {k : Nat} {v : CfgSlot} {r : Repair} : cfgVoidRepairOf (k, v) = some r ↔
    v = .indeterminate ∧ r = ⟨cfgSlotOfKey k, .void, none, none, none⟩ := by
  cases v <;> simp [cfgVoidRepairOf, eq_comm]

theorem mem_cfgVoids {t : Table CfgSlot} (h : tableWf .blank t = true) (r : Repair) : r ∈ t.filterMap cfgVoidRepairOf ↔
    ∃ k : Nat, tableGet .blank t k = .indeterminate ∧ r = ⟨cfgSlotOfKey k, .void, none, none, none⟩ := by
  rw [List.mem_filterMap]
  constructor
  · rintro ⟨⟨k, v⟩, hm, hv⟩
    obtain ⟨rfl, hr⟩ := cfgVoidRepairOf_eq_some.1 hv
    exact ⟨k, ((mem_table_iff h k _).1 hm).2, hr⟩
  · rintro ⟨k, hk, hr⟩
    exact ⟨(k, .indeterminate), (mem_table_iff h k _).2 ⟨by simp, hk⟩, cfgVoidRepairOf_eq_some.2 ⟨rfl, hr⟩⟩

theorem cfgVoidRepairOf_key (kv : Nat × CfgSlot) (r : Repair) (h : cfgVoidRepairOf kv = some r) :
    16 * (r.addr.seg - 32) + r.addr.slot = kv.1 := by
  obtain ⟨-, rfl⟩ := cfgVoidRepairOf_eq_some.1 h
  have hs : (cfgSlotOfKey kv.1).seg - 32 = kv.1 / 16 := Nat.add_sub_cancel_left ..
  refine Eq.trans ?_ (Nat.div_add_mod kv.1 16)
  dsimp only
  rw [hs]
  rfl

/-- Settles O59. -/
theorem resolveSetsSegmentsConfigurationAndRepairs : Obligations.ResolveSetsSegmentsConfigurationAndRepairs := by
  unfold Obligations.ResolveSetsSegmentsConfigurationAndRepairs
  intro s m hc h1 h2 t slot cfg liveSeal stamped filledTo cands voids cfgVoids repairs
  have hconfig : t.config = m.inForce := (nextRepair_keeps (s.resolved m) m.toRepair).2.2.1
  have hindex : t.index = (s.resolved m).index := (nextRepair_keeps (s.resolved m) m.toRepair).1
  have hissue : t.issue = (s.resolved m).issue := (nextRepair_keeps (s.resolved m) m.toRepair).2.1
  refine ⟨fun g hg => ?_, fun i hi => ?_, fun hn => ?_, fun k n v hk => ?_, ⟨s.resolved m, rfl, ?_⟩, fun c => ?_, mem_voids h1,
    filterMap_keys_rise h1 voidRepairOf_key, mem_cfgVoids h2, filterMap_keys_rise h2 cfgVoidRepairOf_key, mem_channelsOf cands,
    channelsOf_rises cands⟩
  · obtain ⟨u, hu⟩ := seg_resolve hc m (g := g) (by omega)
    have ht : t.seg g = _ := hu
    rw [ht, if_pos hg]
    refine ⟨rfl, fun hs => ?_, fun hs => ?_⟩
    · have hs' : ¬ m.stamped g = true := mt (m.stamped_iff g).1 hs
      rw [routeState_unstamped hs', if_neg hs']
      exact ⟨rfl, rfl⟩
    · have hs' : m.stamped g = true := (m.stamped_iff g).2 hs
      rw [if_pos hs']
      obtain ⟨hle, hblank, hlast⟩ := fill_route h1 hg
      refine ⟨m.fill g, rfl, ⟨hle, hblank, hlast⟩, ?_, ?_, fun ho => ?_, fun hlt x n hx hl hu => ?_⟩
      · exact (Option.some_inj).trans (routeState_clean_iff hs')
      · simp only [Option.some_inj]
        rw [routeState_stamped hs']
        split
        · exact .inl rfl
        · split
          · exact .inr (.inl rfl)
          · exact .inr (.inr rfl)
      · exact routeState_opened h1 hs' (Option.some.inj ho)
      · exact congrArg some (routeState_of_seal h1 hs' hg hlt hx hl hu)
  · obtain ⟨u, hu⟩ := seg_resolve hc m (g := 32 + i) (by omega)
    have ht : t.seg (32 + i) = _ := hu
    rw [ht, if_neg (by omega)]
    refine ⟨rfl, fun hs => ?_, fun hs => ?_⟩
    · have hs' : ¬ m.stamped (32 + i) = true := mt (m.stamped_iff _).1 hs
      rw [cfgState_unstamped hs', if_neg hs']
      exact ⟨rfl, rfl⟩
    · have hs' : m.stamped (32 + i) = true := (m.stamped_iff _).2 hs
      rw [if_pos hs', cfgState_stamped hs', hconfig]
      exact ⟨m.fill (32 + i), rfl, fill_cfg h2 i, rfl⟩
  · rw [hconfig]
    obtain ⟨h, -⟩ | ⟨k, n, v, hk, -⟩ := inForce_spec h2
    · exact h
    · exact absurd hk (hn k n v)
  · rw [hconfig]
    obtain ⟨-, h⟩ | ⟨k', n', v', hk', h, hle⟩ := inForce_spec h2
    · exact absurd hk (h k n v)
    · exact ⟨k', n', v', hk', hle k n v hk, h⟩
  · rw [hindex, hissue, hconfig]
    exact resolved_segs s m
  · have hm := mem_candidates h1 c
    constructor
    · intro hx
      obtain ⟨k, n, st, e, ⟨hk, hr, hs⟩, he⟩ := hm.1 hx
      exact ⟨k, n, st, e, hk, hr, hs, he⟩
    · rintro ⟨k, n, st, e, hk, hr, hs, he⟩
      exact hm.2 ⟨k, n, st, e, ⟨hk, hr, hs⟩, he⟩

end Sys2Proof.Machine
end

section
/-! PROOF. REPAIR and the entry into the start mode (R188, R192, R193, R194). -/

namespace Sys2Proof.Machine

open Sys2Proof

/-! ## The end of a repair program (R192, R193) -/

theorem noErase_of_mount {s : State} {m : Mount} (h : s.op = .mount m) : s.noErase := by
  intro e he
  rw [h] at he
  cases he

theorem repairDone_eq {s : State} {m : Mount} {r : Repair} {rest : List Repair} (h : s.op = .mount m) (hr : m.repairs = r :: rest)
    (pass : Bool) : s.repairDone pass = if pass = true then s.nextRepair (m.repaired r rest) else s.repairFailed m r rest := by
  unfold State.repairDone
  rw [h]
  dsimp only
  rw [hr]

theorem repairFailed_eq (s : State) (m : Mount) (r : Repair) (rest : List Repair) : s.repairFailed m r rest =
    let u := s.addFault ⟨.mountRepair, some r.addr.seg, some r.addr.slot, r.recChannel, r.recIssue, none⟩
    let m1 := m.unrecorded r
    match r.act with
    | .void => (u.faultSegmentAtMount r.addr.seg).nextRepair { m1 with repairs := rest }
    | .retire => u.nextRepair { m1 with repairs := { r with act := .void } :: rest }
    | .promote =>
      let cands := m1.cands.filter (fun c : Candidate => c.addr ≠ r.addr)
      (u.setPosition (r.group.getD 0) (positionOf cands (r.group.getD 0))).nextRepair
        { m1 with
          cands := cands
          repairs := { r with act := .void } :: repairsOf cands (r.group.getD 0) ++ rest.filter (fun x : Repair => x.group ≠ r.group) } := rfl

/-- A slot recorded anew in the working state: what every slot then shows. -/
theorem tableGet_slotKey {t : Table Slot} (h : tableWf .blank t = true) (a : SlotAddr) (v : Slot) (k : Nat) :
    tableGet .blank (tablePut .blank (slotKey a) v t) k = if k = 64 * a.seg + a.slot then v else tableGet .blank t k :=
  tableGet_tablePut (slotKey a) k v h

theorem tableGet_cfgKey {t : Table CfgSlot} (h : tableWf .blank t = true) (a : SlotAddr) (v : CfgSlot) (k : Nat) :
    tableGet .blank (tablePut .blank (cfgKey a) v t) k = if k = 16 * (a.seg - 32) + a.slot then v else tableGet .blank t k :=
  tableGet_tablePut (cfgKey a) k v h

theorem repaired_route {m : Mount} {r : Repair} (h : r.addr.seg < 32) (rest : List Repair) : m.repaired r rest =
    { m with
      repairs := rest
      slots := tablePut .blank (slotKey r.addr) (r.act.write.passed (tableGet .blank m.slots (slotKey r.addr))) m.slots } :=
  if_pos h

theorem repaired_cfg {m : Mount} {r : Repair} (h : 32 ≤ r.addr.seg) (rest : List Repair) : m.repaired r rest =
    { m with repairs := rest, cfgSlots := tablePut .blank (cfgKey r.addr) .void m.cfgSlots } :=
  if_neg (Nat.not_lt.2 h)

theorem unrecorded_route {m : Mount} {r : Repair} (h : r.addr.seg < 32) : m.unrecorded r =
    { m with slots := tablePut .blank (slotKey r.addr) .indeterminate m.slots } :=
  if_pos h

theorem unrecorded_cfg {m : Mount} {r : Repair} (h : 32 ≤ r.addr.seg) : m.unrecorded r =
    { m with cfgSlots := tablePut .blank (cfgKey r.addr) .indeterminate m.cfgSlots } :=
  if_neg (Nat.not_lt.2 h)

theorem faultSegmentAtMount_eq (s : State) (g : Nat) : s.faultSegmentAtMount g =
    if g < 32 ∧ ((s.seg g).state = some .opened ∨ (s.seg g).state = some .filled) then s.setSeg g { s.seg g with state := some .faulted }
    else s := by
  unfold State.faultSegmentAtMount
  simp only [State.segIs_iff]
  rfl

/-! ## The losers and the repairs of a channel (R188, Table 10-4) -/

theorem insertByIssue_isInsertion : IsInsertion Candidate.issue insertByIssue := ⟨fun _ => rfl, fun _ _ _ => rfl⟩

theorem losersOf_eq (cands : List Candidate) (ch : Nat) (w : Candidate) : losersOf cands ch w =
    (cands.filter (fun c => decide (c.channel = ch ∧ c.addr ≠ w.addr))).foldr insertByIssue [] := by
  unfold losersOf
  simp only [Bool.decide_and]

theorem losersOf_perm (cands : List Candidate) (ch : Nat) (w : Candidate) :
    (losersOf cands ch w).Perm (cands.filter (fun c => decide (c.channel = ch ∧ c.addr ≠ w.addr))) := by
  rw [losersOf_eq]
  exact insertByIssue_isInsertion.foldr_perm _

theorem losersOf_rises (cands : List Candidate) (ch : Nat) (w : Candidate) :
    (losersOf cands ch w).Pairwise (fun x y => x.issue ≤ y.issue) := by
  rw [losersOf_eq]
  exact insertByIssue_isInsertion.foldr_rises _

theorem repairsOf_eq (cands : List Candidate) (ch : Nat) : repairsOf cands ch =
    match winnerOf cands ch with
    | none => []
    | some w =>
      let retires := (losersOf cands ch w).map (fun c => c.repair .retire)
      match w.isRoute, w.isLive with
      | true, true => retires
      | true, false => w.repair .promote :: retires
      | false, _ => retires ++ [w.repair .retire] := by
  unfold repairsOf
  cases winnerOf cands ch with
  | none => rfl
  | some w =>
    dsimp only
    cases w.isRoute <;> cases w.isLive <;> rfl

/-! ## The next repair, and ENTER (R192, R194) -/

theorem Repair.program_eq (r : Repair) : r.program =
    ⟨.repair, if r.addr.seg < 32 then
        .slot r.addr (match r.act with | .void => .void | .promote => .promote | .retire => .retire)
      else .cfgVoid r.addr⟩ := by
  have hw : r.act.write = match r.act with | .void => SlotWrite.void | .promote => .promote | .retire => .retire := by
    cases r.act <;> rfl
  rw [← hw]
  exact (apply_ite (Program.mk .repair) _ _ _).symm

theorem nextRepair_cons {s : State} {m : Mount} {r : Repair} {rest : List Repair} (h : m.repairs = r :: rest) :
    s.nextRepair m = ({ s with op := .mount m } : State).claimProgram r.program := by
  unfold State.nextRepair
  rw [h]

theorem nextRepair_nil {s : State} {m : Mount} (h : m.repairs = []) : s.nextRepair m = s.enter m := by
  unfold State.nextRepair
  rw [h]

theorem seg_enter {s : State} (hc : s.canonical = true) (m : Mount) (g : Nat) : (s.enter m).seg g =
    if g < 32 then { s.seg g with inUse := some (m.slots.countP (fun kv => decide (kv.1 / 64 = g) && kv.2.inUse)) } else s.seg g := by
  refine (seg_of_segs (s := s.setSegs (fun v g => { v with inUse := some (m.inUse g) }) (List.range 32)) (by rw [enter_eq]) g).trans ?_
  rw [seg_setSegs_range hc]
  rfl

theorem enter_segs (s : State) (m : Mount) : s.enter m = { s with op := .idle, opState := (s.enter m).opState, segs := (s.enter m).segs } := by
  rw [enter_eq, setSegs_segs]

/-- Settles O60. -/
theorem repairsEndInTheStartMode : Obligations.RepairsEndInTheStartMode := by
  unfold Obligations.RepairsEndInTheStartMode
  refine ⟨fun s p m r rest hp hr ho hm => ?_, fun m r rest h1 h2 => ⟨fun hs => ?_, fun hs => ?_⟩, fun s g hc => ⟨fun x hx => ?_, ?_, ?_⟩,
    fun cands ch => ⟨winnerOf_eq_none cands ch, fun w hw => ?_, positionOf_eq cands ch, repairsOf_eq cands ch⟩,
    fun s m r rest h => (nextRepair_cons h).trans (congrArg (fun q => ({ s with op := .mount m } : State).claimProgram q) (Repair.program_eq r)), fun s m hc hm => ?_⟩
  · have he : ∀ pass, exec (.repairProgramCompletion pass) s = .next ((((s.endProgram p pass).repairDone pass)).engineNext).settle :=
      exec_completion_of_role hp hr
    have hd : ∀ pass, (s.endProgram p pass).repairDone pass = _ := fun pass =>
      repairDone_eq ((op_endProgram (noErase_of_mount ho) p pass).trans ho) hm pass
    refine ⟨by rw [he, hd, if_pos rfl], ?_⟩
    intro u m1
    rw [he, hd, if_neg Bool.false_ne_true, repairFailed_eq] <;> rfl
  · refine ⟨?_, ?_, fun k => ⟨?_, ?_⟩⟩
    · rw [repaired_route hs]
    · rw [unrecorded_route hs]
    · rw [repaired_route hs]
      refine (tableGet_slotKey h1 r.addr _ k).trans (ite_congr rfl (fun hk => ?_) fun _ => rfl)
      rw [hk]
      cases r.act <;> rfl
    · rw [unrecorded_route hs]
      exact tableGet_slotKey h1 r.addr _ k
  · refine ⟨?_, ?_, fun k => ⟨?_, ?_⟩⟩
    · rw [repaired_cfg hs]
    · rw [unrecorded_cfg hs]
    · rw [repaired_cfg hs]
      exact tableGet_cfgKey h2 r.addr _ k
    · rw [unrecorded_cfg hs]
      exact tableGet_cfgKey h2 r.addr _ k
  · rw [faultSegmentAtMount_eq]
    split
    · rw [seg_setSeg (segs_of_canonical hc), if_neg hx]
    · rfl
  · rw [faultSegmentAtMount_eq]
    split
    · rw [seg_setSeg (segs_of_canonical hc), if_pos rfl]
    · rfl
  · rw [faultSegmentAtMount_eq]
    split <;> rfl
  · obtain ⟨hm, hch, hle⟩ := winnerOf_some hw
    exact ⟨hm, hch, hle, losersOf_perm cands ch w, losersOf_rises cands ch w⟩
  · rw [nextRepair_nil hm]
    refine ⟨rfl, ?_, fun g hg => by rw [seg_enter hc, if_pos hg], fun g hg => by rw [seg_enter hc, if_neg (Nat.not_lt.2 hg)],
      enter_segs s m⟩
    rw [enter_eq] <;> rfl

end Sys2Proof.Machine
end

section
/-! PROOF. The Channel Index names PENDING or LIVE routes of sealed batches (R24 to R28, R193). -/

namespace Sys2Proof.Machine

open Sys2Proof

/-! ## What a position may name (R24) -/

theorem mem_of_tableGet {α : Type} [DecidableEq α] {d v : α} (hv : v ≠ d) {t : Table α} {k : Nat} (h : tableGet d t k = v) : (k, v) ∈ t := by
  induction t with
  | nil => exact absurd h.symm hv
  | cons kv t ih =>
    obtain ⟨k', v'⟩ := kv
    unfold tableGet at h
    split at h
    · rename_i e
      rw [e, h]
      exact List.mem_cons_self
    · exact List.mem_cons_of_mem _ (ih h)

theorem sealedBy_of_seal {slots : Table Slot} {k k' n c : Nat} (h : tableGet .blank slots k' = .written ⟨.live, n, .seal c⟩)
    (hs : k' / 64 = k / 64) (hlt : k < k') (hle : k' ≤ k + c) : sealedBy slots k n = true :=
  List.any_eq_true.2 ⟨(k', _), mem_of_tableGet (by simp) h, (sealsKey_iff ..).2 ⟨c, rfl, hs, hlt, hle⟩⟩

theorem Store.indexable_eq {m : Store} {ch : Nat} {a : SlotAddr} : m.indexable ch a = true ↔
    a.seg < 32 ∧ a.slot < 64 ∧ ∃ (st : RecState) (n : Nat) (f : RouteFields),
      m.slot a = .written ⟨st, n, .entry ⟨ch, .route f⟩⟩ ∧ st ≠ .retired ∧ sealedBy m.slots (slotKey a) n = true := by
  unfold Store.indexable
  rw [Bool.and_eq_true, Bool.and_eq_true, decide_eq_true_iff, decide_eq_true_iff, and_assoc]
  refine and_congr_right' (and_congr_right' ⟨fun h => ?_, ?_⟩)
  · split at h
    · rename_i st n e hs
      simp only [Bool.and_eq_true, decide_eq_true_eq, Entry.isRoute_iff] at h
      obtain ⟨⟨⟨hst, hch⟩, f, hf⟩, hseal⟩ := h
      refine ⟨st, n, f, hs.trans ?_, hst, hseal⟩
      rw [← hch, ← hf]
    · cases h
  · rintro ⟨st, n, f, hs, hst, hseal⟩
    rw [hs]
    simp only [Bool.and_eq_true, decide_eq_true_eq]
    exact ⟨⟨⟨hst, trivial⟩, rfl⟩, hseal⟩

/-- A seal of the slot stands in its segment at `c` (R24). -/
theorem sealedBy_slot_iff {m : Store} (h : m.wf = true) {a : SlotAddr} (ha : a.slot < 64) (n : Nat) :
    sealedBy m.slots (slotKey a) n = true ↔
      ∃ c k : Nat, a.slot < c ∧ c < 64 ∧ c ≤ a.slot + k ∧ m.slot ⟨a.seg, c⟩ = .written ⟨.live, n, .seal k⟩ := by
  have key : ∀ x : SlotAddr, slotKey x = 64 * x.seg + x.slot := fun _ => rfl
  rw [sealedBy_iff ((Store.wf_iff m).1 h).1]
  constructor
  · rintro ⟨k', c, hg, hd, hlt, hle⟩
    rw [key] at hd hlt hle
    have hle' : 64 * a.seg ≤ k' := by omega
    refine ⟨k' - 64 * a.seg, c, by omega, by omega, by omega, ?_⟩
    unfold Store.slot
    rw [key, Nat.add_sub_cancel' hle']
    exact hg
  · rintro ⟨c, k, hlt, hc, hle, hs⟩
    refine ⟨slotKey ⟨a.seg, c⟩, k, hs, ?_⟩
    rw [key, key]
    dsimp only
    omega

theorem Store.indexable_iff {m : Store} (h : m.wf = true) (ch : Nat) (a : SlotAddr) : m.indexable ch a = true ↔
    a.seg < 32 ∧ a.slot < 64 ∧ ∃ (st : RecState) (n c k : Nat) (f : RouteFields),
      m.slot a = .written ⟨st, n, .entry ⟨ch, .route f⟩⟩ ∧ st ≠ .retired ∧ a.slot < c ∧ c < 64 ∧ c ≤ a.slot + k ∧
      m.slot ⟨a.seg, c⟩ = .written ⟨.live, n, .seal k⟩ := by
  rw [Store.indexable_eq]
  refine and_congr_right' (and_congr_right fun ha => ?_)
  constructor
  · rintro ⟨st, n, f, hs, hst, hseal⟩
    obtain ⟨c, k, hc⟩ := (sealedBy_slot_iff h ha n).1 hseal
    exact ⟨st, n, c, k, f, hs, hst, hc⟩
  · rintro ⟨st, n, c, k, f, hs, hst, hc⟩
    exact ⟨st, n, f, hs, hst, (sealedBy_slot_iff h ha n).2 ⟨c, k, hc⟩⟩

/-- Contents after a program or erase that did not harm them: the same, or a PENDING record become LIVE. -/
def Slot.standsAs (v w : Slot) : Prop :=
  w = v ∨ ∃ (n : Nat) (c : Content), v = .written ⟨.pending, n, c⟩ ∧ w = .written ⟨.live, n, c⟩

theorem Slot.standsAs_live {n : Nat} {c : Content} {w : Slot} (h : Slot.standsAs (.written ⟨.live, n, c⟩) w) :
    w = .written ⟨.live, n, c⟩ := by
  obtain h | ⟨n', c', hv, -⟩ := h
  · exact h
  · cases hv

theorem Slot.standsAs_written {st : RecState} {n : Nat} {c : Content} {w : Slot} (h : Slot.standsAs (.written ⟨st, n, c⟩) w)
    (hst : st ≠ .retired) : ∃ st', w = .written ⟨st', n, c⟩ ∧ st' ≠ .retired := by
  obtain h | ⟨n', c', hv, hw⟩ := h
  · exact ⟨st, h, hst⟩
  · cases hv
    exact ⟨.live, hw, RecState.noConfusion⟩

/-- What a position may name, it may still name when its slot and the LIVE seals of its segment stand. -/
theorem Store.indexable_of_stands {m m' : Store} (h : m.wf = true) (h' : m'.wf = true) {ch : Nat} {a : SlotAddr}
    (hi : m.indexable ch a = true) (ha : (m.slot a).standsAs (m'.slot a))
    (hs : ∀ c n k : Nat, c < 64 → m.slot ⟨a.seg, c⟩ = .written ⟨.live, n, .seal k⟩ → m'.slot ⟨a.seg, c⟩ = m.slot ⟨a.seg, c⟩) :
    m'.indexable ch a = true := by
  obtain ⟨h1, h2, st, n, c, k, f, hr, hst, hlt, hc, hle, hseal⟩ := (Store.indexable_iff h ch a).1 hi
  rw [hr] at ha
  obtain ⟨st', hr', hst'⟩ := Slot.standsAs_written ha hst
  exact (Store.indexable_iff h' ch a).2 ⟨h1, h2, st', n, c, k, f, hr', hst', hlt, hc, hle, (hs c n k hc hseal).trans hseal⟩

/-! ## Programs and erases -/

/-- A promotion that passes harms no record. -/
theorem SlotWrite.promote_stands (v : Slot) : v.standsAs (SlotWrite.promote.passed v) := by
  cases v with
  | written r =>
    obtain ⟨st, n, c⟩ := r
    cases st with
    | pending => exact .inr ⟨n, c, rfl, rfl⟩
    | live => exact .inl rfl
    | retired => exact .inl rfl
  | _ => exact .inl rfl

theorem Store.slots_programmed_other (m : Store) {j : Job} (h : ∀ a w, j ≠ .slot a w) (pass : Bool) : (m.programmed j pass).slots = m.slots := by
  cases j with
  | slot a w => exact absurd rfl (h a w)
  | _ => rfl

/-- What a position may name, it may still name after a promotion that passed, or after a program to a slot that the position does not
name and that holds no LIVE seal. -/
theorem Store.indexable_programmed {m : Store} (h : m.wf = true) {ch : Nat} {x : SlotAddr} (hi : m.indexable ch x = true) {j : Job} {pass : Bool}
    (hj : ∀ (a : SlotAddr) (w : SlotWrite), j = .slot a w → a.slot < 64 ∧
      ((w = .promote ∧ pass = true) ∨ (x ≠ a ∧ ∀ n k : Nat, m.slot a ≠ .written ⟨.live, n, .seal k⟩))) :
    (m.programmed j pass).indexable ch x = true := by
  have hx : x.slot < 64 := ((Store.indexable_iff h ch x).1 hi).2.1
  refine Store.indexable_of_stands h (Store.programmed_wf j pass h) hi ?_ fun c n k hc hs => ?_
  · by_cases hslot : ∃ a w, j = .slot a w
    · obtain ⟨a, w, rfl⟩ := hslot
      obtain ⟨ha, hor⟩ := hj a w rfl
      by_cases e : x = a
      · subst e
        obtain ⟨rfl, rfl⟩ | hne := hor
        · rw [Store.slot_programmed_same x .promote true h]
          exact SlotWrite.promote_stands _
        · exact absurd rfl hne.1
      · rw [Store.slot_programmed_other m w pass ha hx e]
        exact .inl rfl
    · exact .inl (Store.slot_of_slots (m.slots_programmed_other (fun a w e => hslot ⟨a, w, e⟩) pass) x)
  · by_cases hslot : ∃ a w, j = .slot a w
    · obtain ⟨a, w, rfl⟩ := hslot
      obtain ⟨ha, hor⟩ := hj a w rfl
      by_cases e : (⟨x.seg, c⟩ : SlotAddr) = a
      · rw [e] at hs ⊢
        obtain ⟨rfl, rfl⟩ | ⟨-, hne⟩ := hor
        · rw [Store.slot_programmed_same a .promote true h, hs]
          rfl
        · exact absurd hs (hne n k)
      · exact Store.slot_programmed_other m w pass ha hc e
    · exact Store.slot_of_slots (m.slots_programmed_other (fun a w e => hslot ⟨a, w, e⟩) pass) _

theorem Store.slot_erased_other {m : Store} {g : Nat} {a : SlotAddr} (h : m.wf = true) (ha : a.slot < 64) (hne : a.seg ≠ g) :
    (m.erased g).slot a = m.slot a := by
  by_cases hg : g < Config.routeSegments
  · rw [Store.slot_erased a h hg ha, if_neg hne]
  · refine Store.slot_of_slots ?_ a
    unfold Store.erased
    rw [if_neg hg]
    rfl

/-- What a position may name, it may still name when the slots of its segment stand. -/
theorem Store.indexable_of_segment {m m' : Store} (h : m.wf = true) (h' : m'.wf = true) {ch : Nat} {a : SlotAddr}
    (hi : m.indexable ch a = true) (hs : ∀ c : Nat, c < 64 → m'.slot ⟨a.seg, c⟩ = m.slot ⟨a.seg, c⟩) : m'.indexable ch a = true :=
  Store.indexable_of_stands h h' hi (.inl (hs a.slot ((Store.indexable_iff h ch a).1 hi).2.1)) fun c _ _ hc _ => hs c hc

/-! ## Positions moved -/

theorem indexGood_setPosition {s : State} (hc : s.canonical = true) {ch : Nat} {v : Option SlotAddr}
    (hs : ∀ (c : Nat) (a : SlotAddr), c ≠ ch → s.position c = some a → s.store.indexable c a = true)
    (hv : ∀ a : SlotAddr, v = some a → s.store.indexable ch a = true) : (s.setPosition ch v).indexGood := by
  intro c a ha
  rw [State.position_setPosition hc] at ha
  split at ha
  · rename_i e
    rw [e]
    exact hv a ha
  · rename_i e
    exact hs c a e ha

theorem indexGood_switched {s : State} (hc : s.canonical = true) (hs : s.indexGood) {b : Batch} {l : List (Entry × Nat)}
    (hl : ∀ x ∈ l, x.1.isRoute = true → s.store.indexable x.1.channel (b.own x.2) = true) : (s.switched b l).indexGood := by
  induction l generalizing s with
  | nil => exact hs
  | cons x l ih =>
    refine ih (canonical_setPosition _ _ hc) (indexGood_setPosition hc (fun c a _ => hs c a) fun a ha => ?_)
      fun y hy => hl y (List.mem_cons_of_mem _ hy)
    rw [Option.ite_none_right_eq_some] at ha
    obtain ⟨hr, ha⟩ := ha
    rw [← Option.some.inj ha]
    exact hl x List.mem_cons_self hr

/-! ## RESOLVE -/

theorem store_nextRepair (s : State) (m : Mount) : (s.nextRepair m).store = s.store := by
  unfold State.nextRepair
  split
  · exact (sameOutside_claimProgram { s with op := .mount m } _).store
  · rw [enter_eq, setSegs_segs]

theorem store_resolve (s : State) (m : Mount) : (s.resolve m).store = s.store := by
  rw [resolve_eq, store_nextRepair, resolved_segs]

theorem slotOfKey_bounds {k : Nat} (h : k < 2048) : (slotOfKey k).seg < 32 ∧ (slotOfKey k).slot < 64 :=
  ⟨Nat.div_lt_of_lt_mul h, Nat.mod_lt k (by decide)⟩

/-- The address of a ROUTE that is a candidate may be named by its channel's position, in a store that holds what was recorded. -/
theorem candidate_indexable {st : Store} {m : Mount} (h : tableWf .blank m.slots = true)
    (hr : ∀ (k : Nat) (r : SlotRecord), tableGet .blank m.slots k = .written r → k < 2048 ∧ tableGet .blank st.slots k = .written r)
    {c : Candidate} (hc : c ∈ m.candidates) (hroute : c.isRoute = true) : st.indexable c.channel c.addr = true := by
  obtain ⟨k, n, rs, e, ⟨hk, hst, hseal⟩, rfl⟩ := (mem_candidates h c).1 hc
  obtain ⟨hlt, hk'⟩ := hr k _ hk
  obtain ⟨hseg, hslot⟩ := slotOfKey_bounds hlt
  obtain ⟨f, hf⟩ := (Entry.isRoute_iff e).1 hroute
  obtain ⟨k', cnt, hg, hd, hlt', hle⟩ := (sealedBy_iff h k n).1 hseal
  refine Store.indexable_eq.2 ⟨hseg, hslot, rs, n, f, ?_, hst, ?_⟩
  · unfold Store.slot
    rw [slotKey_slotOfKey, hk', ← hf]
  · rw [slotKey_slotOfKey]
    exact sealedBy_of_seal (hr k' _ hg).2 hd hlt' hle

theorem positionOf_some {cands : List Candidate} {ch : Nat} {a : SlotAddr} (h : positionOf cands ch = some a) :
    ∃ w ∈ cands, w.channel = ch ∧ w.isRoute = true ∧ w.addr = a := by
  unfold positionOf at h
  split at h
  · rename_i w hw
    rw [Option.ite_none_right_eq_some] at h
    obtain ⟨hm, hch, -⟩ := winnerOf_some hw
    exact ⟨w, hm, hch, h.1, Option.some.inj h.2⟩
  · cases h

/-- Settles O9. -/
theorem indexStaysOnSealedRoutes : Obligations.IndexStaysOnSealedRoutes := by
  unfold Obligations.IndexStaysOnSealedRoutes
  refine ⟨fun s p pass hc hs hj ch x hx => ?_, fun s b hc hs hseg hlast hseal hes => ?_, fun s ch v hc hs hv => indexGood_setPosition hc hs hv,
    fun s g hc hs hg => ⟨fun ch a ha => ?_, fun ch a ha => ?_⟩, fun s m hm hr ch a ha => ?_, fun s o ch a ha => ?_,
    fun m ch a h => Store.indexable_iff h ch a⟩
  · rw [position_endProgram] at hx
    rw [store_endProgram]
    refine Store.indexable_programmed (State.store_wf hc) (hs ch x hx) fun a w hw => ?_
    obtain ⟨ha, hor⟩ := hj a w hw
    exact ⟨ha, hor.imp_right fun h => ⟨fun e => h.1 ch (e ▸ hx), h.2⟩⟩
  · refine indexGood_switched hc hs fun x hx hroute => ?_
    obtain ⟨e, i⟩ := x
    have hi : b.entries[i]? = some e := List.mem_zipIdx_iff_getElem?.1 hx
    have hlt : i < b.entries.length := (List.getElem?_eq_some_iff.1 hi).1
    obtain ⟨f, hf⟩ := (Entry.isRoute_iff e).1 hroute
    refine (Store.indexable_iff (State.store_wf hc) ..).2 ⟨hseg, show b.first + i < 64 by omega, .pending, b.issue,
      b.first + b.entries.length, b.entries.length, f, (hes i e hi hroute).trans ?_, RecState.noConfusion,
      show b.first + i < _ by omega, hlast, show _ ≤ b.first + i + _ by omega, hseal⟩
    rw [← hf]
  · have ha' : s.position ch = some a := ha
    exact Store.indexable_of_segment (State.store_wf hc) (Store.erased_wf g (State.store_wf hc)) (hs ch a ha') fun c hlt =>
      Store.slot_erased_other (State.store_wf hc) hlt (hg ch a ha')
  · have ha' : s.position ch = some a := ha
    exact Store.indexable_of_segment (State.store_wf hc) (Store.torn_wf g (State.store_wf hc)) (hs ch a ha') fun c hlt =>
      Store.slot_torn_other (State.store_wf hc) hlt (hg ch a ha')
  · rw [position_resolve] at ha
    obtain ⟨w, hw, rfl, hroute, rfl⟩ := positionOf_some ha
    rw [store_resolve]
    exact candidate_indexable hm hr hw hroute
  · cases show (none : Option SlotAddr) = some a from ha

end Sys2Proof.Machine
end

section
/-! PROOF. What replies, fault records, counts and frames on their way leave alone; the OPEN segments, and HELD with RESET
(R14, R163, R179 to R181). -/

namespace Sys2Proof.Machine

open Sys2Proof

/-! ## Outside the engine -/

/-- Two states that differ at most in what replies, fault records, counters, frames on their way, the Staging Buffer, the guard
release and the waiting commands are. -/
def SameInside (s t : State) : Prop :=
  t = { s with
    guardRelease := t.guardRelease, staging := t.staging, faults := t.faults, overflow := t.overflow, ingress := t.ingress
    counters := t.counters, traffic := t.traffic, replies := t.replies, lineTx := t.lineTx, delivery := t.delivery, tapTx := t.tapTx
    memory := t.memory, pending := t.pending }

namespace SameInside

variable {s t u : State}

theorem refl (s : State) : SameInside s s := rfl

theorem trans (h : SameInside s t) (h' : SameInside t u) : SameInside s u := by
  unfold SameInside at h h' ⊢
  rw [h] at h'
  exact h'

theorem op (h : SameInside s t) : t.op = s.op := (congrArg State.op (show t = _ from h) :)
theorem suspended (h : SameInside s t) : t.suspended = s.suspended := (congrArg State.suspended (show t = _ from h) :)
theorem queue (h : SameInside s t) : t.queue = s.queue := (congrArg State.queue (show t = _ from h) :)
theorem segs (h : SameInside s t) : t.segs = s.segs := (congrArg State.segs (show t = _ from h) :)
theorem store (h : SameInside s t) : t.store = s.store := (congrArg State.store (show t = _ from h) :)
theorem index (h : SameInside s t) : t.index = s.index := (congrArg State.index (show t = _ from h) :)
theorem issue (h : SameInside s t) : t.issue = s.issue := (congrArg State.issue (show t = _ from h) :)
theorem config (h : SameInside s t) : t.config = s.config := (congrArg State.config (show t = _ from h) :)
theorem opState (h : SameInside s t) : t.opState = s.opState := (congrArg State.opState (show t = _ from h) :)
theorem resetAsserted (h : SameInside s t) : t.resetAsserted = s.resetAsserted := (congrArg State.resetAsserted (show t = _ from h) :)
theorem banks (h : SameInside s t) : t.banks = s.banks := (congrArg State.banks (show t = _ from h) :)
theorem stages (h : SameInside s t) : t.stages = s.stages := (congrArg State.stages (show t = _ from h) :)
theorem program (h : SameInside s t) : t.program = s.program := (congrArg State.program (show t = _ from h) :)
theorem cfgBank (h : SameInside s t) : t.cfgBank = s.cfgBank := (congrArg State.cfgBank (show t = _ from h) :)

theorem kickLine (s : State) (l : Line) : SameInside s (s.kickLine l) := by
  obtain e | ⟨-, r, rs, -, e⟩ | ⟨-, -, f, fs, -, e⟩ := kickLine_cases s l <;> rw [e] <;> rfl

theorem kickTap (s : State) : SameInside s s.kickTap := by
  obtain e | ⟨-, d, ds, -, e⟩ := kickTap_cases s <;> rw [e] <;> rfl

theorem count (s : State) (p : Port) (c : Counter) : SameInside s (s.count p c) := rfl

theorem placeTraffic (s : State) (l : Line) (f : Frame) : SameInside s (s.placeTraffic l f) := by
  unfold State.placeTraffic
  split
  · exact trans (t := { s with traffic := s.traffic.set l (s.traffic.get l ++ [f]) }) rfl (kickLine _ l)
  · rfl

theorem carryTraffic (s : State) (l : Line) (f : Frame) : SameInside s (s.carryTraffic l f) := by
  unfold State.carryTraffic
  split
  · exact trans (t := { s with traffic := s.traffic.set l (s.traffic.get l ++ [f]) }) rfl (kickLine _ l)
  · rfl

theorem placeDelivery (s : State) (f : Frame) : SameInside s (s.placeDelivery f) := by
  unfold State.placeDelivery
  split
  · exact trans (t := { s with delivery := s.delivery ++ [⟨f, false⟩] }) rfl (kickTap _)
  · rfl

theorem appendReply (s : State) (l : Line) (o : Outgoing) : SameInside s (s.appendReply l o) :=
  trans (t := { s with replies := s.replies.set l (s.replies.get l ++ [o]) }) rfl (kickLine _ l)

theorem placeReply (s : State) (p : Port) (o : Outgoing) : SameInside s (s.placeReply p o) := by
  unfold State.placeReply
  split
  · cases p with
    | east => exact appendReply s .east o
    | west => exact appendReply s .west o
    | tap => exact trans (t := { s with delivery := s.delivery ++ [o] }) rfl (kickTap _)
  · rfl

theorem addFault (s : State) (r : FaultRecord) : SameInside s (s.addFault r) := by
  unfold State.addFault
  split <;> rfl

theorem emitReply (s : State) (o : Origin) (k st : Byte) (r : List Byte) (a : Bool) : SameInside s (s.emitReply o k st r a) :=
  placeReply ..

theorem replyRead (s : State) (o : Origin) (k : Byte) (st : Status) (r : List Byte) : SameInside s (s.replyRead o k st r) :=
  emitReply ..

theorem replyStored (s : State) (o : Origin) (k : ReqKind) (st : Status) (r : List Byte) : SameInside s (s.replyStored o k st r) := by
  unfold State.replyStored
  split
  · exact emitReply ..
  · exact trans (t := s.remember o k.code st.code r) rfl (emitReply ..)

theorem replyAwaited (s : State) (o : Origin) (k : ReqKind) (st : Status) : SameInside s (s.replyAwaited o k st) :=
  trans (t := s.remember o k.code st.code []) rfl (emitReply ..)

theorem arrive (s : State) (p : Port) (f : Frame) : SameInside s (s.arrive p f) := by
  unfold State.arrive
  dsimp only
  split <;> rfl

theorem arriveHeld (s : State) (p : Port) (f : Frame) : SameInside s (s.arriveHeld p f) := by
  unfold State.arriveHeld
  split
  · split <;> rfl
  · rfl

theorem lineSent (s : State) (l : Line) : SameInside s (({ s with lineTx := s.lineTx.set l none } : State).kickLine l) :=
  trans (t := { s with lineTx := s.lineTx.set l none }) rfl (kickLine _ l)

theorem tapSent (s : State) : SameInside s ({ s with tapTx := none } : State).kickTap :=
  trans (t := { s with tapTx := none }) rfl (kickTap _)

end SameInside

/-! ## Predicates on the segment values -/

/-- A predicate on the segment values that the updates of them keep is kept, with the canonical forms, by every command. -/
theorem segs_stable {Q : State → Prop} (hQ : ∀ {s t : State}, Q s → t.segs = s.segs → Q t)
    (setSeg : ∀ (s : State) (g : Nat) (v : SegVol), (v.state = some .opened → (s.seg g).state = some .opened) →
      s.canonical = true → Q s → Q (s.setSeg g v))
    (allocate : ∀ (s : State) (g : Nat), s.canonical = true → Q s → Q (s.allocate g))
    (openCfg : ∀ (s : State) (g : CfgSeg), s.canonical = true → Q s → Q (s.openConfigSegment g))
    (setAll : ∀ (s : State) (m : Mount), s.canonical = true → Q s → Q (s.setAllSegments m))
    (reset : ∀ s : State, s.segs = [] → Q s) : StableCommands (fun s => s.canonical = true ∧ Q s) where
  toStableWork := StableWork.ofWork (fun _ _ _ _ _ _ _ h => ⟨h.1, hQ h.2 rfl⟩)
  setSeg s g v hv h := ⟨canonical_stable.setSeg s g v hv h.1, setSeg s g v hv h.1 h.2⟩
  allocate s g h := ⟨canonical_stable.allocate s g h.1, allocate s g h.1 h.2⟩
  openConfigSegment s g h := ⟨canonical_stable.openConfigSegment s g h.1, openCfg s g h.1 h.2⟩
  setAllSegments s m h := ⟨canonical_stable.setAllSegments s m h.1, setAll s m h.1 h.2⟩
  programmed s j pass h := ⟨canonical_stable.programmed s j pass h.1, hQ h.2 rfl⟩
  erasedCfg s g h := ⟨canonical_stable.erasedCfg s g h.1, hQ h.2 rfl⟩
  torn s g h := ⟨canonical_stable.torn s g h.1, hQ h.2 rfl⟩
  setPosition s c v h := ⟨canonical_stable.setPosition s c v h.1, hQ h.2 rfl⟩
  resolved s cands n c h := ⟨canonical_stable.resolved s cands n c h.1, hQ h.2 rfl⟩
  dequeued _ _ _ h := ⟨h.1, hQ h.2 rfl⟩
  issue _ _ h := ⟨h.1, hQ h.2 rfl⟩
  addFault s r h := ⟨canonical_stable.addFault s r h.1, hQ h.2 (SameInside.addFault s r).segs⟩
  placeReply s p o h := ⟨canonical_stable.placeReply s p o h.1, hQ h.2 (SameInside.placeReply s p o).segs⟩
  remember _ _ _ _ _ h := ⟨h.1, hQ h.2 rfl⟩
  config _ _ h := ⟨h.1, hQ h.2 rfl⟩
  opState _ _ _ h := ⟨h.1, hQ h.2 rfl⟩
  internalReset s h := ⟨canonical_stable.internalReset s h.1, reset _ rfl⟩
  unstaged _ h := ⟨h.1, hQ h.2 rfl⟩
  staged _ _ _ _ _ _ _ h := ⟨h.1, hQ h.2 rfl⟩
  enqueued _ _ _ h := ⟨h.1, hQ h.2 rfl⟩
  clearFaults _ h := ⟨h.1, hQ h.2 rfl⟩
  count _ _ _ h := ⟨h.1, hQ h.2 rfl⟩
  clearCounters _ _ h := ⟨h.1, hQ h.2 rfl⟩
  placeTraffic s l f h := ⟨canonical_stable.placeTraffic s l f h.1, hQ h.2 (SameInside.placeTraffic s l f).segs⟩
  carryTraffic s l f h := ⟨canonical_stable.carryTraffic s l f h.1, hQ h.2 (SameInside.carryTraffic s l f).segs⟩
  placeDelivery s f h := ⟨canonical_stable.placeDelivery s f h.1, hQ h.2 (SameInside.placeDelivery s f).segs⟩
  taken _ _ _ _ _ h := ⟨h.1, hQ h.2 rfl⟩
  arrived _ _ _ _ h := ⟨h.1, hQ h.2 rfl⟩
  lineSent s l h := ⟨canonical_stable.lineSent s l h.1, hQ h.2 (SameInside.lineSent s l).segs⟩
  tapSent s h := ⟨canonical_stable.tapSent s h.1, hQ h.2 (SameInside.tapSent s).segs⟩
  guardLevel _ _ h := ⟨h.1, hQ h.2 rfl⟩
  reset s o h := ⟨canonical_stable.reset s o h.1, reset _ rfl⟩
  resetLevel _ _ h := ⟨h.1, hQ h.2 rfl⟩
  standing _ h := ⟨h.1, hQ h.2 rfl⟩

/-! ## One OPEN route segment (R14) -/

/-- No two route segments are OPEN. -/
def State.OneOpen (s : State) : Prop :=
  ∀ x y : Nat, x < 32 → y < 32 → (s.seg x).state = some .opened → (s.seg y).state = some .opened → x = y

theorem State.oneOpen_iff (s : State) : s.OneOpen ↔ s.atMostOneOpen = true := by
  unfold State.OneOpen
  simp only [atMostOneOpen_iff, State.segIs_iff]

/-- No segment becomes OPEN: at most one is, if at most one was. -/
theorem State.OneOpen.of_opened {s t : State} (h : s.OneOpen)
    (ht : ∀ x, (t.seg x).state = some .opened → (s.seg x).state = some .opened) : t.OneOpen :=
  fun x y hx hy ox oy => h x y hx hy (ht x ox) (ht y oy)

theorem opened_setSeg {s : State} (hc : s.canonical = true) {g : Nat} {v : SegVol}
    (hv : v.state = some .opened → (s.seg g).state = some .opened) (x : Nat) (hx : ((s.setSeg g v).seg x).state = some .opened) :
    (s.seg x).state = some .opened := by
  rw [seg_setSeg (segs_of_canonical hc)] at hx
  split at hx
  · rename_i e
    rw [e]
    exact hv hx
  · exact hx

/-- After an allocation the allocated segment alone is OPEN. -/
theorem opened_allocate {s : State} (hc : s.canonical = true) (h : s.OneOpen) (g : Nat) {x : Nat} (hx : x < 32)
    (ho : ((s.allocate g).seg x).state = some .opened) : x = g := by
  refine Classical.byContradiction fun hne => ?_
  have hs := (State.oneOpen_iff s).1 h
  unfold State.allocate State.setSegFill State.setSegState at ho
  split at ho
  · rename_i o hopen
    have hc' := canonical_setSeg o { s.seg o with state := some .filled } hc
    rw [seg_setSeg (segs_of_canonical hc'), if_neg hne, seg_setSeg (segs_of_canonical hc)] at ho
    split at ho
    · cases ho
    · rename_i hxo
      have hox := (openSeg_eq_some hs x).2 ⟨hx, ho⟩
      rw [hopen] at hox
      exact hxo (Option.some.inj hox).symm
  · rename_i hopen
    rw [seg_setSeg (segs_of_canonical hc), if_neg hne] at ho
    have hox := (openSeg_eq_some hs x).2 ⟨hx, ho⟩
    rw [hopen] at hox
    cases hox

theorem opened_setAllSegments {s : State} (hc : s.canonical = true) (m : Mount) {x : Nat} (hx : x < 34)
    (ho : ((s.setAllSegments m).seg x).state = some .opened) :
    (if x < 32 then m.routeState x else m.cfgState x) = .opened := by
  rw [setAllSegments_eq, seg_setSegs_range hc, if_pos hx] at ho
  exact Option.some.inj ho

theorem sealSegment_of_opened {m : Mount} {g : Nat} (h : m.routeState g = .opened) : m.sealSegment = some g := by
  by_cases hs : m.stamped g = true
  · exact ((routeState_opened_iff hs).1 h).2.1
  · rw [routeState_unstamped hs] at h
    cases h

theorem seg_nil {s : State} (h : s.segs = []) (x : Nat) : s.seg x = SegVol.noValue := by
  unfold State.seg
  rw [h]
  rfl

theorem oneOpen_stable : StableCommands (fun s => s.canonical = true ∧ s.OneOpen) :=
  segs_stable (fun h e => h.of_opened fun x => (congrArg (fun v => v.state = some SegState.opened) (seg_of_segs e x)).mp)
    (fun _ _ _ hv hc h => h.of_opened (opened_setSeg hc hv))
    (fun _ g hc h x y hx hy ox oy => (opened_allocate hc h g hx ox).trans (opened_allocate hc h g hy oy).symm)
    (fun s g hc h x y hx hy ox oy => by
      have closed : ∀ z, z < 32 → ((s.openConfigSegment g).seg z).state = some .opened → (s.seg z).state = some .opened := by
        intro z hz oz
        have hne : z ≠ g.id := fun e => by have := g.id_eq; omega
        rw [seg_openConfigSegment hc, if_neg hne] at oz
        split at oz
        · cases oz
        · exact oz
      exact h x y hx hy (closed x hx ox) (closed y hy oy))
    (fun s m hc _ x y hx hy ox oy => by
      have hx' := opened_setAllSegments hc m (by omega) ox
      have hy' := opened_setAllSegments hc m (by omega) oy
      rw [if_pos hx] at hx'
      rw [if_pos hy] at hy'
      exact Option.some.inj ((sealSegment_of_opened hx').symm.trans (sealSegment_of_opened hy')))
    (fun s e x _ _ _ ox _ => by rw [seg_nil e] at ox; cases ox)

/-! ## One OPEN configuration segment (R163) -/

theorem atMostOneOpenCfg_of_opened {s t : State} (h : s.atMostOneOpenCfg = true)
    (ht : ∀ g : CfgSeg, (t.seg g.id).state = some .opened → (s.seg g.id).state = some .opened) : t.atMostOneOpenCfg = true := by
  rw [atMostOneOpenCfg_iff] at h ⊢
  exact fun ⟨ha, hb⟩ => h ⟨ht .ca ha, ht .cb hb⟩

/-- After a configuration segment is opened it alone is OPEN. -/
theorem opened_openConfigSegment {s : State} (hc : s.canonical = true) (h : s.atMostOneOpenCfg = true) (g f : CfgSeg)
    (ho : ((s.openConfigSegment g).seg f.id).state = some .opened) : f = g := by
  refine Classical.byContradiction fun hne => ?_
  rw [seg_openConfigSegment hc, if_neg (fun e => hne (CfgSeg.id_inj e))] at ho
  split at ho
  · cases ho
  · rename_i hx
    exact hx (congrArg (Option.map CfgSeg.id) ((openCfgSeg_eq_some h f).2 ho))

theorem inForce_of_opened {m : Mount} {g : Nat} (h : m.cfgState g = .opened) :
    m.inForce.source.map (fun src => src.addr.seg) = some g := by
  by_cases hs : m.stamped g = true
  · rw [cfgState_stamped hs] at h
    split at h
    · assumption
    · split at h <;> cases h
  · rw [cfgState_unstamped hs] at h
    cases h

theorem atMostOneOpenCfg_of_unique {s : State} (h : ∀ f g : CfgSeg, (s.seg f.id).state = some .opened → (s.seg g.id).state = some .opened → f = g) :
    s.atMostOneOpenCfg = true :=
  (atMostOneOpenCfg_iff s).2 fun ⟨ha, hb⟩ => CfgSeg.noConfusion (h .ca .cb ha hb)

end Sys2Proof.Machine
end

section
/-! PROOF. The unit is HELD exactly while it is supplied and RESET is asserted, and nothing goes on inside it then (R179 to R181). -/

namespace Sys2Proof.Machine

open Sys2Proof

/-! ## Supplied, and RESET not asserted -/

theorem linkUp_stable : StableInside (fun s => s.opState.linkUp = true ∧ s.resetAsserted = false) where
  toStableWork := StableWork.ofWork (fun _ _ _ _ _ _ _ h => h)
  setSeg _ _ _ _ h := h
  allocate _ g h := allocate_keeps (P := fun s => s.opState.linkUp = true ∧ s.resetAsserted = false) (fun _ _ _ h => h) g h
  openConfigSegment _ g h :=
    openConfigSegment_keeps (P := fun s => s.opState.linkUp = true ∧ s.resetAsserted = false) (fun _ _ _ h => h) g h
  setAllSegments _ m h := setAllSegments_keeps (P := fun s => s.opState.linkUp = true ∧ s.resetAsserted = false) (fun _ _ _ h => h) m h
  programmed _ _ _ h := h
  erasedCfg _ _ h := h
  torn _ _ h := h
  setPosition _ _ _ h := h
  resolved _ _ _ _ h := h
  dequeued _ _ _ h := h
  issue _ _ h := h
  addFault s r h := by simpa using h
  placeReply _ _ _ h := by simpa using h
  remember _ _ _ _ _ h := h
  config _ _ h := h
  opState _ _ ho h := ⟨ho, h.2⟩
  internalReset _ h := ⟨rfl, h.2⟩
  unstaged _ h := h
  staged _ _ _ _ _ _ _ h := h
  enqueued _ _ _ h := h
  clearFaults _ h := h
  count _ _ _ h := h
  clearCounters _ _ h := h
  placeTraffic _ _ _ h := by simpa using h
  carryTraffic _ _ _ h := by simpa using h
  placeDelivery _ _ h := by simpa using h
  taken _ _ _ _ _ h := h
  arrived _ _ _ _ h := h
  lineSent _ _ h := by simpa using h
  tapSent _ h := by simpa using h
  guardLevel _ _ h := h

/-! ## HELD or without supply -/

/-- The unit is HELD with RESET asserted, or without supply, and nothing goes on inside it. -/
def State.AtRest (s : State) : Prop :=
  s.quietInside = true ∧ (s.opState = .noPower ∨ (s.opState = .held ∧ s.resetAsserted = true))

theorem heldByReset_iff (s : State) :
    s.heldByReset = true ↔ s.AtRest ∨ (s.opState.linkUp = true ∧ s.resetAsserted = false) := by
  unfold State.heldByReset State.AtRest
  cases s.opState <;> simp [OpState.linkUp, and_comm]

theorem heldByReset_of_atRest {s : State} (h : s.AtRest) : s.heldByReset = true := (heldByReset_iff s).2 (.inl h)

theorem heldByReset_of_linkUp {s : State} (h : s.opState.linkUp = true ∧ s.resetAsserted = false) : s.heldByReset = true :=
  (heldByReset_iff s).2 (.inr h)

namespace State.AtRest

variable {s t : State}

theorem of_same (h : s.AtRest) (ht : SameInside s t) : t.AtRest := by
  obtain ⟨hq, ho⟩ := h
  rw [State.quietInside_iff] at hq
  refine ⟨(State.quietInside_iff t).2 ?_, ?_⟩
  · rw [ht.program, ht.op, ht.banks, ht.cfgBank, ht.stages]
    exact hq
  · rw [ht.opState, ht.resetAsserted]
    exact ho

theorem op (h : s.AtRest) : s.op = .idle := (s.quietInside_iff.1 h.1).2.1

theorem program (h : s.AtRest) : s.program = none := (s.quietInside_iff.1 h.1).1

theorem banks (h : s.AtRest) : s.banks = State.reset.banks := (s.quietInside_iff.1 h.1).2.2.1

theorem stage (h : s.AtRest) (p : Port) : s.stages.get p = .idle := by
  rw [(s.quietInside_iff.1 h.1).2.2.2.2]
  cases p <;> rfl

theorem bank (h : s.AtRest) (b : Bank) : s.bank b = BankUnit.reset := by
  unfold State.bank
  rw [h.banks]
  cases b <;> rfl

theorem noErase (h : s.AtRest) : s.noErase := fun e he => by
  rw [h.op] at he
  cases he

theorem linkUp (h : s.AtRest) : s.opState.linkUp = false := by
  obtain ho | ⟨ho, -⟩ := h.2 <;> rw [ho] <;> rfl

theorem takeHead (h : s.AtRest) (p : Port) : (s.takeHead p).AtRest := by
  unfold State.takeHead
  split
  · exact h
  · rename_i f rest _
    have h1 : ({ s with ingress := s.ingress.set p rest } : State).AtRest := h.of_same rfl
    dsimp only
    have down : ∀ o : OpState, s.opState = o → o.linkUp = true → False := fun o ho hl => by
      rw [← ho, h.linkUp] at hl
      cases hl
    split
    · exact h1
    · unfold State.carryAcross
      split
      · exact h1.of_same (SameInside.carryTraffic ..)
      · exact h1
    · rename_i ho
      exact (down _ ho rfl).elim
    · rename_i ho
      exact (down _ ho rfl).elim
    · rename_i ho
      exact (down _ ho rfl).elim

theorem takeHeads (h : s.AtRest) (n : Nat) : (State.takeHeads n s).AtRest := by
  induction n generalizing s with
  | zero => exact h
  | succ n ih =>
    unfold State.takeHeads
    split
    · rw [examineReasons_of_noErase h.noErase]
      exact ih (h.takeHead _)
    · exact h

theorem settle (h : s.AtRest) : s.settle.AtRest := by
  have h1 := h.takeHeads s.ingressTotal
  unfold State.settle
  rwa [examineErase_of_noErase h1.noErase]

theorem sent (h : s.AtRest) (o : Outgoing) : (s.sent o).AtRest := by
  unfold State.sent State.awaitedSent
  rw [h.op]
  split <;> exact h

theorem receive (h : s.AtRest) (k : ReqKind) (p : Port) (t : Byte) (ps : List Byte) : (s.receive k p t ps).AtRest := by
  unfold State.receive
  rw [h.linkUp]
  exact h

theorem completes (h : s.AtRest) (r : ProgramRole) (pass : Bool) : (s.completes r pass).AtRest := by
  unfold State.completes
  rw [h.program]
  exact h

end State.AtRest

/-- A command other than those of the supply and RESET leaves a unit at rest so. -/
theorem atRest_exec {c : Instr} {s t : State} (hc : isSupplyCommand c = false) (h : s.AtRest) (he : exec c s = .next t) : t.AtRest := by
  have done : ∀ {x : State}, x.AtRest → (Host.Outcome.next x : Host.Outcome State Fault Refusal) = .next t → t.AtRest := by
    intro x hx e
    injection e with e
    exact e ▸ hx
  cases c with
  | powerOn | lossOfPower | resetAssertion | resetRelease => cases hc
  | guardReleaseChange b => exact done (h.of_same (t := { s with guardRelease := b }) rfl) he
  | frameArrival p f =>
    simp only [exec, execFrameArrival] at he
    obtain ho | ⟨ho, -⟩ := h.2
    · rw [ho] at he
      exact done h he
    · rw [ho] at he
      exact done (h.of_same (SameInside.arriveHeld ..)).settle he
  | lookupReadCompletion p m =>
    simp only [exec, execLookupReadCompletion, State.readInHand, h.stage p] at he
    exact done h he
  | readSlotCompletion b m =>
    simp only [exec, execReadSlotCompletion, h.bank b] at he
    exact done h he
  | holdTimerExpiry p =>
    simp only [exec, execHoldTimerExpiry, State.heldInQueue, h.stage p] at he
    exact done h he
  | lineTransmissionCompletion l =>
    simp only [exec, execLineTransmissionCompletion] at he
    split at he
    · exact done ((h.of_same (SameInside.lineSent s l)).sent _) he
    · exact done h he
  | tapTransmissionCompletion =>
    simp only [exec, execTapTransmissionCompletion] at he
    split at he
    · exact done ((h.of_same (SameInside.tapSent s)).sent _) he
    · exact done h he
  | programDeadlineExpiry =>
    simp only [exec, execProgramDeadlineExpiry, h.program] at he
    exact done h he
  | writeProgramCompletion b | sealProgramCompletion b | settleProgramCompletion b | voidProgramCompletion b
  | stampProgramCompletion b | configStampCompletion b | configWriteCompletion b | configVoidCompletion b
  | repairProgramCompletion b => exact done (h.completes _ _) he
  | idleTimerExpiry =>
    simp only [exec, execIdleTimerExpiry] at he
    split at he
    · exact done (h.of_same (SameInside.trans (t := { s with staging := Staging.reset }) rfl (SameInside.addFault _ _))) he
    · exact done h he
  | sourceReadCompletion m =>
    simp only [exec, execSourceReadCompletion, State.sourceInFlight, h.op] at he
    exact done h he
  | eraseCompletion us =>
    simp only [exec, execEraseCompletion, h.op] at he
    exact done h he
  | suspendCompletion us =>
    simp only [exec, execSuspendCompletion, h.op] at he
    exact done h he
  | stopCompletion us =>
    simp only [exec, execStopCompletion, h.op] at he
    exact done h he
  | eraseTimeoutExpiry =>
    simp only [exec, execEraseTimeoutExpiry, h.op] at he
    exact done h he
  | runIntervalTimerExpiry =>
    simp only [exec, execRunIntervalTimerExpiry, h.op] at he
    exact done h he
  | configEraseCompletion =>
    simp only [exec, execConfigEraseCompletion, State.rotationAt, h.op] at he
    exact done h he
  | configEraseTimeout =>
    simp only [exec, execConfigEraseTimeout, State.rotationAt, h.op] at he
    exact done h he
  | configStopCompletion =>
    simp only [exec, execConfigStopCompletion, State.rotationAt, h.op] at he
    exact done h he
  | headerReadCompletion m =>
    simp only [exec, execHeaderReadCompletion, State.mountReading, h.op] at he
    exact done h he
  | slotScanReadCompletion m =>
    simp only [exec, execSlotScanReadCompletion, State.mountReading, h.op] at he
    exact done h he
  | restartDrainExpiry =>
    simp only [exec, execRestartDrainExpiry, h.op] at he
    exact done h he
  | status p t ps | describe p t ps | readSlot p t ps | readIndex p t ps | readCounters p t ps | readCountersWithClear p t ps
  | readFaults p t ps | readConfig p t ps | clearFaults p t ps | stage p t ps | unstage p t ps | abandon p t ps | commit p t ps
  | erase p t ps | reclaim p t ps | setConfig p t ps | restart p t ps => exact done (h.receive _ _ _ _) he
  | setModeRun p t | setModeBypass p t => exact done (h.receive _ _ _ _) he

theorem quietInside_volatileReset (s : State) (o : OpState) : (s.volatileReset o).quietInside = true :=
  (State.quietInside_iff _).2 ⟨rfl, rfl, rfl, rfl, rfl⟩

/-- Every command keeps HELD together with RESET. -/
theorem heldByReset_exec {c : Instr} {s t : State} (h : s.heldByReset = true) (he : exec c s = .next t) : t.heldByReset = true := by
  have done : ∀ {x : State}, x.heldByReset = true → (Host.Outcome.next x : Host.Outcome State Fault Refusal) = .next t →
      t.heldByReset = true := by
    intro x hx e
    injection e with e
    exact e ▸ hx
  by_cases hc : isSupplyCommand c = false
  · obtain hr | hl := (heldByReset_iff s).1 h
    · exact heldByReset_of_atRest (atRest_exec hc hr he)
    · exact heldByReset_of_linkUp (exec_keeps_inside linkUp_stable hc (fun _ _ _ _ hx => hx) hl he)
  · have mounts : ∀ u : State, u.resetAsserted = false → u.beginMount.opState.linkUp = true ∧ u.beginMount.resetAsserted = false := by
      intro u hu
      have hs := sameOutside_claimRead ({ u with opState := .mounting, op := .mount Mount.start } : State) (.header 0)
      exact ⟨congrArg OpState.linkUp hs.opState, hs.resetAsserted.trans hu⟩
    cases c with
    | powerOn =>
      refine done ?_ he
      unfold State.powerUp
      split
      · rename_i hr
        exact heldByReset_of_atRest ⟨quietInside_volatileReset s _, .inr ⟨rfl, hr⟩⟩
      · rename_i hr
        exact heldByReset_of_linkUp (mounts _ (Bool.eq_false_iff.2 hr))
    | lossOfPower => exact done (heldByReset_of_atRest ⟨quietInside_volatileReset s _, .inl rfl⟩) he
    | resetAssertion =>
      refine done ?_ he
      split
      · exact heldByReset_of_atRest ⟨quietInside_volatileReset _ _, .inr ⟨rfl, rfl⟩⟩
      · rename_i hn
        obtain ⟨hq, ho⟩ | ⟨hl, -⟩ := (heldByReset_iff s).1 h
        · exact heldByReset_of_atRest ⟨hq, ho.imp_right fun x => ⟨x.1, rfl⟩⟩
        · exact absurd (OpState.resettable_of_linkUp hl) hn
    | resetRelease =>
      refine done ?_ he
      split
      · exact heldByReset_of_linkUp (linkUp_stable.settle (mounts _ rfl))
      · rename_i hn
        obtain ⟨hq, ho⟩ | ⟨hl, -⟩ := (heldByReset_iff s).1 h
        · exact heldByReset_of_atRest ⟨hq, .inl (ho.resolve_right fun x => hn x.1)⟩
        · exact heldByReset_of_linkUp ⟨hl, rfl⟩
    | _ => exact absurd rfl hc

end Sys2Proof.Machine
end

section
/-! PROOF. What the operations of the banks leave of the engine's records: the current operation and the suspended-erase record stand,
but for how far the erase in progress has come. -/

namespace Sys2Proof.Machine

open Sys2Proof

/-! ## Records but for how far the erase has come -/

/-- An erase record without how far the erase has come. -/
def EraseRec.bare (e : EraseRec) : EraseRec :=
  { e with step := .claimed, activeUs := 0, suspensions := 0, runTimer := false, held := [] }

/-- The current operation without how far its erase has come. -/
def CurrentOp.bare : CurrentOp → CurrentOp
  | .erase e => .erase e.bare
  | x => x

theorem CurrentOp.bare_erase {x : CurrentOp} {e : EraseRec} (h : x.bare = .erase e) : ∃ e', x = .erase e' ∧ e'.bare = e := by
  cases x with
  | erase e' => exact ⟨e', rfl, CurrentOp.erase.inj h⟩
  | _ => cases h

theorem CurrentOp.eq_of_bare {x y : CurrentOp} (h : x.bare = y.bare) (hy : ∀ e, y ≠ .erase e) : x = y := by
  cases y with
  | erase e => exact absurd rfl (hy e)
  | _ => cases x <;> first | exact h | cases h

/-- Two states with the same current operation and suspended-erase record, but for how far the erase in progress has come. -/
structure SameJobs (s t : State) : Prop where
  op : t.op.bare = s.op.bare
  suspended : t.suspended.map EraseRec.bare = s.suspended.map EraseRec.bare

namespace SameJobs

variable {s t u : State}

theorem refl (s : State) : SameJobs s s := ⟨rfl, rfl⟩

theorem trans (h : SameJobs s t) (h' : SameJobs t u) : SameJobs s u := ⟨h'.op.trans h.op, h'.suspended.trans h.suspended⟩

theorem of_eq (ho : t.op = s.op) (hs : t.suspended = s.suspended) : SameJobs s t := ⟨by rw [ho], by rw [hs]⟩

theorem noErase (h : SameJobs s t) (hs : s.noErase) : t.noErase := fun e he => by
  have hb := h.op
  rw [he] at hb
  obtain ⟨e', he', -⟩ := CurrentOp.bare_erase hb.symm
  exact hs e' he'

theorem op_eq (h : SameJobs s t) (hs : s.noErase) : t.op = s.op := CurrentOp.eq_of_bare h.op hs

theorem erase (h : SameJobs s t) {e : EraseRec} (hs : s.op = .erase e) : ∃ e', t.op = .erase e' ∧ e'.bare = e.bare := by
  have hb := h.op
  rw [hs] at hb
  exact CurrentOp.bare_erase hb

theorem suspended_none (h : SameJobs s t) (hs : s.suspended = none) : t.suspended = none := by
  have hm := h.suspended
  rw [hs] at hm
  exact Option.map_eq_none_iff.1 hm

theorem idle (h : SameJobs s t) (ht : t.op = .idle) : s.op = .idle := by
  have hb := h.op
  rw [ht] at hb
  exact CurrentOp.eq_of_bare (y := .idle) hb.symm fun _ => CurrentOp.noConfusion

end SameJobs

theorem SameInside.jobs {s t : State} (h : SameInside s t) : SameJobs s t := .of_eq h.op h.suspended

/-- The current operation is a route erase. -/
theorem erase_of_not_noErase {s : State} (h : ¬ s.noErase) : ∃ e, s.op = .erase e := by
  obtain ⟨e, he⟩ := Classical.not_forall.1 h
  exact ⟨e, Decidable.not_not.1 he⟩

/-! ## What keeps the records -/

/-- A predicate kept by every change of the banks, the lookup stages, the program in progress and the configuration bank, and by every
change of how far the erase in progress has come. -/
structure StableJobs (P : State → Prop) : Prop where
  inner : ∀ (s : State) (banks : PerBank BankUnit) (stages : PerPort Stage) (program : Option Program) (cfgBank : CfgBank), P s →
    P { s with banks := banks, stages := stages, program := program, cfgBank := cfgBank }
  progress : ∀ (s : State) (f : EraseRec → EraseRec), (∀ e, (f e).bare = e.bare) → P s → P (s.mapErase f)

namespace StableJobs

variable {P : State → Prop}

theorem setBank (h : StableJobs P) {s : State} (b : Bank) (u : BankUnit) (hs : P s) : P (s.setBank b u) :=
  h.inner s _ _ _ _ hs

theorem setStage (h : StableJobs P) {s : State} (p : Port) (g : Stage) (hs : P s) : P (s.setStage p g) :=
  h.inner s _ _ _ _ hs

theorem startHead (h : StableJobs P) {s : State} (b : Bank) (hs : P s) : P (s.startHead b) := by
  unfold State.startHead
  split
  · split
    · exact h.setStage _ _ (h.setBank _ _ hs)
    · exact hs
  · exact hs

theorem grant (h : StableJobs P) {s : State} (b : Bank) (c : Claim) (hs : P s) : P (s.grant b c) := by
  unfold State.grant
  dsimp only
  split
  · exact h.inner s _ _ _ _ hs
  · exact h.progress _ _ (fun _ => rfl) (h.setBank _ _ hs)
  · exact h.progress _ _ (fun _ => rfl) (h.setBank _ _ hs)
  · exact h.setBank _ _ hs

theorem makeClaim (h : StableJobs P) {s : State} (b : Bank) (c : Claim) (hs : P s) : P (s.makeClaim b c) := by
  unfold State.makeClaim
  split
  · exact h.setBank _ _ hs
  · exact h.setBank _ _ hs
  · exact h.setBank _ _ hs
  all_goals
    split
    · exact h.grant _ _ (h.setBank _ _ hs)
    · exact h.startHead _ (h.setBank _ _ hs)

theorem markerDown (h : StableJobs P) {s : State} (b : Bank) (hs : P s) : P (s.markerDown b) := by
  unfold State.markerDown
  dsimp only
  split
  · split
    · exact h.grant _ _ (h.setBank _ _ hs)
    · exact h.setBank _ _ hs
  · exact h.setBank _ _ hs

theorem readDone (h : StableJobs P) {s : State} (b : Bank) (hs : P s) : P (s.readDone b) := by
  unfold State.readDone
  split
  · dsimp only
    split
    · exact h.startHead _ (h.markerDown _ (h.setBank _ _ hs))
    · exact h.startHead _ (h.setBank _ _ hs)
  · exact hs

theorem release (h : StableJobs P) {s : State} (b : Bank) (hs : P s) : P (s.release b) := by
  unfold State.release
  split
  · exact h.startHead _ (h.setBank _ _ hs)
  · split
    · exact h.grant _ _ hs
    · exact h.startHead _ (h.setBank _ _ hs)

theorem releaseErase (h : StableJobs P) {s : State} (b : Bank) (hs : P s) : P (s.releaseErase b) := by
  unfold State.releaseErase
  dsimp only
  split
  · exact h.setBank _ _ hs
  · exact h.setBank _ _ hs
  · exact h.release _ (h.setBank _ _ hs)

theorem withdrawClaim (h : StableJobs P) {s : State} (b : Bank) (hs : P s) : P (s.withdrawClaim b) := by
  unfold State.withdrawClaim
  dsimp only
  split
  · exact h.release _ (h.setBank _ _ hs)
  · exact h.setBank _ _ hs

theorem withdrawRead (h : StableJobs P) {s : State} (p : Port) (b : Bank) (hs : P s) : P (s.withdrawRead p b) := by
  unfold State.withdrawRead
  split
  · dsimp only
    split
    · exact h.startHead _ (h.markerDown _ (h.setBank _ _ hs))
    · exact h.startHead _ (h.setBank _ _ hs)
  · exact hs

theorem requestRead (h : StableJobs P) {s : State} (p : Port) (x : InHand) (a : SlotAddr) (hs : P s) : P (s.requestRead p x a) := by
  unfold State.requestRead
  dsimp only
  split
  · exact h.setStage _ _ (h.setBank _ _ hs)
  · exact h.setStage _ _ (h.setBank _ _ hs)

theorem claimProgram (h : StableJobs P) {s : State} (p : Program) (hs : P s) : P (s.claimProgram p) := by
  unfold State.claimProgram
  dsimp only
  split
  · exact h.makeClaim _ _ hs
  · split
    · exact h.makeClaim _ _ hs
    · exact h.inner s _ _ _ _ hs
  · exact h.inner s _ _ _ _ hs
  · exact h.inner s _ _ _ _ hs

theorem claimRead (h : StableJobs P) {s : State} (t : ReadTarget) (hs : P s) : P (s.claimRead t) := by
  unfold State.claimRead
  cases t <;>
  · dsimp only
    split
    · exact h.makeClaim _ _ hs
    · exact h.inner s _ _ _ _ hs

theorem engineReadDone (h : StableJobs P) {s : State} (t : ReadTarget) (hs : P s) : P (s.engineReadDone t) := by
  unfold State.engineReadDone
  cases t <;>
  · dsimp only
    split
    · exact h.readDone _ hs
    · exact h.inner s _ _ _ _ hs

theorem releaseProgram (h : StableJobs P) {s : State} (j : Job) (hs : P s) : P (s.releaseProgram j) := by
  unfold State.releaseProgram
  dsimp only
  split
  · exact h.release _ hs
  · split
    · exact h.release _ hs
    · exact h.inner s _ _ _ _ hs
  · exact h.inner s _ _ _ _ hs
  · exact h.inner s _ _ _ _ hs

theorem freeEraseBank (h : StableJobs P) {s : State} (e : EraseRec) (hs : P s) : P (s.freeEraseBank e) := by
  unfold State.freeEraseBank
  split
  · exact h.withdrawClaim _ hs
  · exact h.releaseErase _ hs

theorem lookAgain (h : StableJobs P) {s : State} (e : EraseRec) (hs : P s) : P (s.lookAgain e) := by
  unfold State.lookAgain
  dsimp only
  split
  · exact h.setBank _ _ (h.progress _ _ (fun _ => rfl) hs)
  · exact h.setBank _ _ (h.progress _ _ (fun _ => rfl) hs)

theorem reasonAppears (h : StableJobs P) {s : State} (e : EraseRec) (hs : P s) : P (s.reasonAppears e) := by
  unfold State.reasonAppears
  dsimp only
  split
  · exact h.setBank _ _ (h.progress _ _ (fun _ => rfl) hs)
  · exact h.lookAgain _ (h.setBank _ _ (h.progress _ _ (fun _ => rfl) hs))

theorem examineReasons (h : StableJobs P) {s : State} (hs : P s) : P s.examineReasons := by
  unfold State.examineReasons
  split
  · split
    · exact h.reasonAppears _ hs
    · exact hs
  · exact hs

theorem examineResume (h : StableJobs P) {s : State} (hs : P s) : P s.examineResume := by
  unfold State.examineResume
  split
  · split
    · exact h.makeClaim _ _ hs
    · exact hs
  · exact hs

end StableJobs

/-- The progress of the erase stands in `bare` records. -/
theorem sameJobs_mapErase (s : State) {f : EraseRec → EraseRec} (hf : ∀ e, (f e).bare = e.bare) : SameJobs s (s.mapErase f) := by
  unfold State.mapErase
  split
  · rename_i e he
    refine ⟨?_, rfl⟩
    rw [he]
    exact congrArg CurrentOp.erase (hf e)
  · refine ⟨rfl, ?_⟩
    cases s.suspended with
    | none => rfl
    | some e => exact congrArg some (hf e)

theorem sameJobs_stable (s : State) : StableJobs (SameJobs s) where
  inner _ _ _ _ _ h := ⟨h.op, h.suspended⟩
  progress x _ hf h := h.trans (sameJobs_mapErase x hf)

theorem sameJobs_endProgram (s : State) (p : Program) (pass : Bool) : SameJobs s (s.endProgram p pass) := by
  rw [endProgram_eq]
  refine (sameJobs_stable s).releaseProgram p.job ?_
  rw [programEnded_eq]
  exact ⟨rfl, rfl⟩

theorem sameJobs_examineErase (s : State) : SameJobs s s.examineErase :=
  (sameJobs_stable s).examineResume ((sameJobs_stable s).examineReasons (.refl s))

end Sys2Proof.Machine
end

section
/-! PROOF. What the engine does, said once with its records: every operation of the engine and of the mount sets the current operation
from a state in which it is free to do so, and the rules of `EngineRules` say what that asks and gives. -/

namespace Sys2Proof.Machine

open Sys2Proof

/-! ## The rules -/

/-- The operations that the engine may set for a request of origin `o`; while a suspended erase stands (`alone` is false) a COMMIT or a
configuration write only (R108). -/
def CurrentOp.fits (alone : Bool) (o : Option Origin) : CurrentOp → Prop
  | .idle => True
  | .commit b => o = some b.origin
  | .configWrite w => o = some w.origin
  | .reclaim r => alone = true ∧ o = some r.origin
  | .restart r => alone = true ∧ o = some r.origin
  | .mount _ => alone = true
  | .erase _ => False

/-- The operations beside which no suspended erase stands (R108). -/
def CurrentOp.alone : CurrentOp → Bool
  | .reclaim _ | .restart _ | .mount _ => true
  | _ => false

/-- The record of an erase in progress, that of the current operation or the suspended one. -/
def State.erases (s : State) (e : EraseRec) : Prop :=
  s.op = .erase e ∨ s.suspended = some e

/-- What a predicate `M` on states, and a predicate `F` on the states in which the engine is free to go on with the work of a request,
must satisfy for every operation of the engine to keep `M`; under `K` a program in progress is one that the current operation issues. -/
structure EngineRules (K : Prop) (M : State → Prop) (F : Bool → Option Origin → State → Prop) : Prop where
  /- The engine is free to go on. -/
  freeOutside : ∀ {a o s t}, F a o s → SameInside s t → F a o t
  freeSeg : ∀ {a o s} (g : Nat) (v : SegVol), (v.state = some .opened → (s.seg g).state = some .opened) →
    (v.state = some .erasing → (s.seg g).state = some .erasing) → F a o s → F a o (s.setSeg g v)
  freeAllocate : ∀ {a o s} {g : Nat}, g < 32 → F a o s → F a o (s.allocate g)
  freeOpenCfg : ∀ {a o s} (g : CfgSeg), F a o s → F a o (s.openConfigSegment g)
  freeSetAll : ∀ {a o s} (m : Mount), F a o s → F a o (s.setAllSegments m)
  freeStore : ∀ {a o s} {m : Store}, (s.store.wf = true → m.wf = true) → F a o s → F a o { s with store := m }
  freeIndex : ∀ {a o s} {x : Table (Option SlotAddr)}, (tableWf none s.index = true → tableWf none x = true) → F a o s →
    F a o { s with index := x }
  freeRest : ∀ {a o s} (n : Option Nat) (c : InForce) (x : OpState) (k : CfgBank), F a o s →
    F a o { s with issue := n, config := c, opState := x, cfgBank := k }
  freeReadDone : ∀ {a o s} (t : ReadTarget), F a o s → F a o (s.engineReadDone t)
  freeDrop : ∀ {a o s} {q : List QueuedRequest}, q.Sublist s.queue → F a o s → F a o { s with queue := q }
  freeTake : ∀ {a s} {q : QueuedRequest} {qs : List QueuedRequest}, s.queue = q :: qs → F a none s →
    F a (some q.origin) { s with queue := qs }
  freeOp : ∀ {a o s} (x : CurrentOp), F a o s → F a o { s with op := x }
  freeReset : ∀ {a o s} (x : OpState), F a o s → M (s.volatileReset x)
  /- It goes on. -/
  set : ∀ {a o s} {x : CurrentOp}, F a o s → x.fits a o → M { s with op := x }
  program : ∀ {a o s} {x : CurrentOp} {p : Program}, F a o s → x.fits a o →
    (K → ({ s with op := x } : State).issues p = true) → M (({ s with op := x } : State).claimProgram p)
  read : ∀ {a o s} {x : CurrentOp} (t : ReadTarget), F a o s → x.fits a o → M (({ s with op := x } : State).claimRead t)
  erase : ∀ {o s} (g : Nat) (t : Option Tallies), F true (some o) s → M (s.beginErase g o t)
  issued : ∀ {s} {p : Program}, K → M s → s.program = some p → s.issues p = true
  /- It becomes free. -/
  free : ∀ {s} {a : Bool}, M s → s.noErase → (a = true → s.op.alone = true ∨ s.suspended = none) → (∀ p, s.issues p = false) →
    F a s.op.origin? s
  ended : ∀ {s} {p : Program} (pass : Bool), M s → s.program = some p → M (s.endProgram p pass)
  endedFree : ∀ {s} {p : Program} (pass : Bool), M s → s.program = some p → s.noErase →
    F s.op.alone s.op.origin? (s.endProgram p pass)
  stampEnded : ∀ {s} {p : Program} {e : EraseRec} (pass : Bool) (x : SegState), M s → s.program = some p → p.role = .stamp →
    (s.endProgram p pass).op = .erase e → x ≠ .opened → x ≠ .erasing →
    F true (some e.origin) ((s.endProgram p pass).setSegFill e.seg x 0)
  /- What else happens. -/
  outside : ∀ {s t}, M s → SameInside s t → M t
  enqueue : ∀ {s} {o : Origin} (k : QueuedKind), M s → s.inProgress o = false → M { s with queue := s.queue ++ [⟨o, k⟩] }
  drop : ∀ {s} {q : List QueuedRequest}, q.Sublist s.queue → M s → M { s with queue := q }
  levels : ∀ {s} (x : OpState) (b : Bool), M s → M { s with opState := x, resetAsserted := b }
  reset : ∀ {s} (x : OpState), M s → M (s.volatileReset x)
  resume : ∀ {s} {e : EraseRec}, M s → s.op = .idle → s.suspended = some e → M { s with op := .erase e, suspended := none }
  suspend : ∀ {s} {e : EraseRec}, M s → s.op = .erase e → e.step = .suspended → F false none { s with suspended := some e, op := .idle }
  completed : ∀ {s} {e : EraseRec} (us : Nat), M s → s.op = .erase e → e.step = .running ∨ e.step = .waiting ∨ e.step = .suspending →
    M (s.eraseCompleted (e.ran us))
  suspends : ∀ {s} {e : EraseRec} (us : Nat), M s → s.op = .erase e → e.step = .suspending → M (s.eraseSuspends (e.ran us))
  ends : ∀ {s t} {e e' : EraseRec}, M s → s.erases e → e.step ≠ .stamping → e'.bare = e.bare → e'.step = e.step →
    SameInside ((s.tearSegment e').freeEraseBank e') t → M t.discardErase
  stops : ∀ {s} {e : EraseRec} (c : StopCause), M s → s.erases e → e.step = .running ∨ e.step = .waiting →
    M (s.mapErase (fun x => { x with step := .stopping c, runTimer := false }))
  holds : ∀ {s} (c : StopCause), M s → M (s.mapErase (fun x => x.hold c))
  interval : ∀ {s} {e : EraseRec}, M s → s.op = .erase e → M (s.intervalEnds e)
  reasons : ∀ {s}, M s → M s.examineReasons
  resumes : ∀ {s}, M s → M s.examineResume
  abandons : ∀ {s} {r : ReclaimRec}, M s → s.op = .reclaim r → M { s with op := .reclaim { r with abandoned := true } }
  requests : ∀ {s} {p : Port} (h : InHand) (a : SlotAddr), M s → s.stages.get p = .idle → M (s.requestRead p h a)
  lookupDone : ∀ {s} {p : Port} {h : InHand}, M s → s.readInHand p = some h →
    M ((s.setStage p .idle).readDone (bankOf h.addr.seg))
  readSlotDone : ∀ {s} {b : Bank} {a : SlotAddr} {o : Origin} {k : Bool}, M s → (s.bank b).inFlight = some ⟨.slot a, .readSlot o, k⟩ →
    M (s.readDone b)
  readSlotStarts : ∀ {s} {b : Bank} (a : SlotAddr) (o : Origin), M s → (s.bank b).readSlotStarts = true →
    M (s.setBank b { s.bank b with inFlight := some ⟨.slot a, .readSlot o, false⟩ })
  withdraws : ∀ {s} {p : Port} {h : InHand}, M s → s.stages.get p = .waitBank h →
    M ((s.setStage p .idle).withdrawRead p (bankOf h.addr.seg))
  leaves : ∀ {s} {p : Port} {h : InHand}, M s → s.stages.get p = .reading h → M (s.setStage p (.reading { h with leftRunning := true }))

/-- The current operation writes a batch for a request of origin `o`; `ob` is the origin that the batch records. -/
def State.writesFor (s : State) (a : Bool) (o ob : Origin) : Prop :=
  ((∃ b, s.op = .commit b) ∧ ob = o) ∨ ∃ r, s.op = .reclaim r ∧ a = true ∧ r.origin = o

/-- The record of a batch written for a request of origin `o`. -/
theorem setBatch_fits {s : State} {a : Bool} {o : Origin} {b : Batch} (hw : s.writesFor a o b.origin) : ∃ x : CurrentOp, x.fits a (some o) ∧
    s.setBatch b = { s with op := x } ∧ ∀ (u : State) p, ({ u with op := x } : State).issues p = b.issues p := by
  obtain ⟨⟨b0, h⟩, ho⟩ | ⟨r, h, ha, ho⟩ := hw
  · exact ⟨.commit b, congrArg some ho.symm, State.setBatch_commit b h, fun _ _ => rfl⟩
  · exact ⟨.reclaim { r with stage := .writing b }, ⟨ha, congrArg some ho.symm⟩, State.setBatch_reclaim b h, fun _ _ => rfl⟩

namespace EngineRules

variable {K : Prop} {M : State → Prop} {F : Bool → Option Origin → State → Prop}

/-! ## Segments -/

theorem freeSetState (h : EngineRules K M F) {a o s} (g : Nat) {x : SegState} (hx : x ≠ .opened) (hx' : x ≠ .erasing) (hF : F a o s) :
    F a o (s.setSegState g x) :=
  h.freeSeg _ _ (fun e => absurd (Option.some.inj e) hx) (fun e => absurd (Option.some.inj e) hx') hF

theorem freeSetFill (h : EngineRules K M F) {a o s} (g : Nat) {x : SegState} (n : Nat) (hx : x ≠ .opened) (hx' : x ≠ .erasing)
    (hF : F a o s) : F a o (s.setSegFill g x n) :=
  h.freeSeg _ _ (fun e => absurd (Option.some.inj e) hx) (fun e => absurd (Option.some.inj e) hx') hF

theorem freeBumpFill (h : EngineRules K M F) {a o s} (g : Nat) (hF : F a o s) : F a o (s.bumpFill g) :=
  h.freeSeg _ _ id id hF

theorem freeBumpErases (h : EngineRules K M F) {a o s} (g : Nat) (hF : F a o s) : F a o (s.bumpErases g) :=
  h.freeSeg _ _ id id hF

theorem freeInUse (h : EngineRules K M F) {a o s} (g n : Nat) (hF : F a o s) : F a o (s.setInUse g n) :=
  h.freeSeg _ _ id id hF

theorem freePosition (h : EngineRules K M F) {a o s} (c : Nat) (v : Option SlotAddr) (hF : F a o s) : F a o (s.setPosition c v) :=
  h.freeIndex (fun hx => tablePut_wf _ _ hx) hF

theorem freeFold (f : State → Nat → State) {a o} (hf : ∀ {s} g, F a o s → F a o (f s g)) {s} (l : List Nat) (hF : F a o s) :
    F a o (l.foldl f s) := by
  induction l generalizing s with
  | nil => exact hF
  | cons g l ih => exact ih (hf g hF)

theorem freeFaulted (h : EngineRules K M F) {a o s} (g : Nat) (hF : F a o s) : F a o (s.faultSegment g) := by
  unfold State.faultSegment
  split
  · exact h.freeSetState g (by decide) (by decide) hF
  · exact hF

/-! ## Back to work -/

/-- A free engine that leaves the operation as it is. -/
theorem back (h : EngineRules K M F) {a o s} (hF : F a o s) (hx : s.op.fits a o) : M s :=
  h.set (s := s) hF hx

theorem idle (h : EngineRules K M F) {a o s} (hF : F a o s) (hi : s.op = .idle) : M s :=
  h.back hF (hi ▸ trivial)

theorem endOp (h : EngineRules K M F) {a o s} (hF : F a o s) : M s.endOp :=
  h.set hF trivial

theorem endReply (h : EngineRules K M F) {a o s t} (hF : F a o s) (ht : SameInside s t) : M t.endOp :=
  h.endOp (h.freeOutside hF ht)

/-! ## The mount -/

theorem enter (h : EngineRules K M F) {a o s} (m : Mount) (hF : F a o s) : M (s.enter m) := by
  obtain ⟨x, hx⟩ : ∃ x : OpState, s.enter m =
      { s.setSegs (fun v g => { v with inUse := some (m.inUse g) }) (List.range 32) with op := .idle, opState := x } := ⟨_, rfl⟩
  have hf := freeFold (F := F) (a := a) (o := o) (fun acc g => acc.setInUse g (m.inUse g)) (fun g => h.freeInUse g (m.inUse g))
    (List.range 32) hF
  change F a o (s.setSegs (fun v g => { v with inUse := some (m.inUse g) }) (List.range 32)) at hf
  rw [hx]
  generalize s.setSegs (fun v g => { v with inUse := some (m.inUse g) }) (List.range 32) = u at hf ⊢
  exact h.set (x := .idle) (h.freeRest u.issue u.config x u.cfgBank hf) trivial

theorem nextRepair (h : EngineRules K M F) {o s} {m : Mount} (hm : K → m.phase = .repair) (hF : F true o s) : M (s.nextRepair m) := by
  unfold State.nextRepair
  split
  · rename_i r rs hr
    refine h.program hF rfl fun hk => ?_
    simp [State.issues, hm hk, hr]
  · exact h.enter m hF

theorem resolve (h : EngineRules K M F) {o s} (m : Mount) (hF : F true o s) : M (s.resolve m) := by
  have hF1 := h.freeSetAll m hF
  rw [resolve_eq, State.resolved]
  generalize s.setAllSegments m = u at hF1 ⊢
  exact h.nextRepair (fun _ => rfl) (h.freeRest (some m.issueCounter) m.inForce u.opState u.cfgBank
    (h.freeIndex (fun _ => indexFrom_wf m.candidates) hF1))

theorem beginSlotScan (h : EngineRules K M F) {o s} (m : Mount) (hF : F true o s) : M (s.beginSlotScan m) := by
  unfold State.beginSlotScan
  split
  · exact h.read _ hF rfl
  · exact h.resolve m hF

theorem freeSetAllErases (h : EngineRules K M F) {a o s} (l : List (Option Nat)) (hF : F a o s) :
    F a o (s.setAllErases l) :=
  freeFold (F := F) (fun acc g => acc.setSeg g { acc.seg g with erases := some (erasesFromHeaders l g) })
    (fun {u} g hs => h.freeSeg g { u.seg g with erases := some (erasesFromHeaders l g) } (fun e => e) (fun e => e) hs) _ hF

theorem headerScanned (h : EngineRules K M F) {o s} (m : Mount) (r : Option Nat) (hF : F true o s) : M (s.headerScanned m r) := by
  unfold State.headerScanned
  dsimp only
  split
  · exact h.read _ hF rfl
  · exact h.beginSlotScan _ (h.freeSetAllErases _ hF)

theorem slotScanned (h : EngineRules K M F) {o s} (m : Mount) (hF : F true o s) : M (s.slotScanned m) := by
  unfold State.slotScanned
  split
  · exact h.read _ hF rfl
  · exact h.resolve m hF

theorem repairFailed (h : EngineRules K M F) {o s} {m : Mount} (hm : K → m.phase = .repair) (r : Repair) (rest : List Repair)
    (hF : F true o s) : M (s.repairFailed m r rest) := by
  have hp : K → (m.unrecorded r).phase = .repair := by
    unfold Mount.unrecorded
    split <;> exact hm
  have hf := h.freeOutside hF (SameInside.addFault s r.faultRecord)
  unfold State.repairFailed
  dsimp only
  split
  · refine h.nextRepair (o := o) hp ?_
    unfold State.faultSegmentAtMount
    split
    · exact h.freeSetState _ (by decide) (by decide) hf
    · exact hf
  · exact h.nextRepair hp hf
  · exact h.nextRepair hp (h.freePosition _ _ hf)

theorem repairDone (h : EngineRules K M F) {s} (pass : Bool) (hM : M s) (hF : ∀ m, s.op = .mount m → m.repairs ≠ [] → (K → m.phase = .repair) ∧ F true none s) :
    M (s.repairDone pass) := by
  unfold State.repairDone
  split
  · rename_i m hop
    split
    · rename_i r rest hr
      obtain ⟨hp, hf⟩ := hF m hop (by rw [hr]; exact List.cons_ne_nil _ _)
      split
      · refine h.nextRepair ?_ hf
        unfold Mount.repaired
        split <;> exact hp
      · exact h.repairFailed hp r rest hf
    · exact hM
  · exact hM

/-! ## Batches -/


theorem batchProgram (h : EngineRules K M F) {a o s} {b : Batch} {p : Program} (hF : F a (some o) s) (hw : s.writesFor a o b.origin)
    (hp : b.issues p = true) : M ((s.setBatch b).claimProgram p) := by
  obtain ⟨x, hx, he, hi⟩ := setBatch_fits hw
  rw [he]
  exact h.program hF hx fun _ => (hi s p).trans hp

theorem batchProgramNext (h : EngineRules K M F) {a o s} {b : Batch} {p : Program} (g : Nat) (hF : F a (some o) s)
    (hw : s.writesFor a o b.origin) (hp : b.issues p = true) : M (((s.setBatch b).bumpFill g).claimProgram p) := by
  obtain ⟨x, hx, he, hi⟩ := setBatch_fits hw
  rw [he]
  exact h.program (h.freeBumpFill g hF) hx fun _ => (hi (s.bumpFill g) p).trans hp

theorem issueWrite (h : EngineRules K M F) {a o s} {b : Batch} (k : Nat) (hF : F a (some o) s) (hw : s.writesFor a o b.origin) :
    M (s.issueWrite b k) := by
  unfold State.issueWrite State.issueSeal
  split
  · rename_i e he
    exact h.batchProgramNext (b := { b with phase := .write, step := .write k }) b.seg hF hw (by simp [Batch.issues, he, Batch.own])
  · exact h.batchProgramNext (b := { b with phase := .seal, step := .seal }) b.seg hF hw (by simp [Batch.issues, Batch.sealSlot])

theorem checkErase (h : EngineRules K M F) {o s} (g : Nat) (t : Option Tallies) (hF : F true (some o) s) : M (s.checkErase g o t) := by
  have reply : ∀ (e : EraseRec) (st : Status) (r : EraseResult), SameInside s (s.replyErase e st r) := by
    intro e st r
    unfold State.replyErase
    split <;> exact SameInside.replyStored ..
  unfold State.checkErase
  dsimp only
  split
  · exact h.endReply hF (reply ..)
  · split
    · exact h.endReply hF (reply ..)
    · exact h.erase g t hF

theorem relocateNext (h : EngineRules K M F) {s} (r : ReclaimRec) (hF : F true (some r.origin) s) : M (s.relocateNext r) := by
  unfold State.relocateNext
  split
  · exact h.checkErase _ _ hF
  · exact h.read _ hF ⟨rfl, rfl⟩

theorem endReclaim (h : EngineRules K M F) {a o s} (r : ReclaimRec) (st : Status) (x : ReclaimResult) (hF : F a o s) :
    M (s.endReclaim r st x) :=
  h.endReply hF (SameInside.replyStored ..)

theorem batchSettled (h : EngineRules K M F) {a o s} (b : Batch) (hF : F a (some o) s) (hw : s.writesFor a o b.origin) :
    M (s.batchSettled b) := by
  unfold State.batchSettled
  split
  · rename_i r hr
    obtain ⟨⟨b0, hb⟩, -⟩ | ⟨r', hr', rfl, ho⟩ := hw
    · rw [hr] at hb
      cases hb
    · rw [hr] at hr'
      obtain rfl := CurrentOp.reclaim.inj hr'
      dsimp only
      split
      · exact h.endReclaim _ _ _ hF
      · exact h.relocateNext _ (by rw [ho]; exact hF)
  · dsimp only
    split <;> exact h.endReply hF (SameInside.replyStored ..)

theorem batchVoided (h : EngineRules K M F) {a o s} (b : Batch) (n : Nat) (c : Option Nat) (hF : F a o s) : M (s.batchVoided b n c) := by
  unfold State.batchVoided
  split
  · exact h.endReclaim _ _ _ hF
  · dsimp only
    split <;> exact h.endReply hF (SameInside.replyStored ..)

theorem issueVoid (h : EngineRules K M F) {a o s} {b : Batch} (n : Nat) (c : Option Nat) (l : List VoidTarget) (hF : F a (some o) s)
    (hw : s.writesFor a o b.origin) : M (s.issueVoid b n c l) := by
  unfold State.issueVoid
  split
  · rename_i x xs
    exact h.batchProgram (b := { b with step := .voiding n c (x :: xs) }) hF hw (by simp [Batch.issues])
  · exact h.batchVoided b n c hF

theorem issueSettle (h : EngineRules K M F) {a o s} {b : Batch} (k : Nat) (st : SettleStep) (hF : F a (some o) s)
    (hw : s.writesFor a o b.origin) : M (s.issueSettle b k st) :=
  h.batchProgram (b := { b with phase := .settle, step := .settle k st }) hF hw
    (decide_eq_true (by cases st <;> rfl))

theorem settleEntry (h : EngineRules K M F) {a o s} {b : Batch} (k : Nat) (hF : F a (some o) s) (hw : s.writesFor a o b.origin) :
    M (s.settleEntry b k) := by
  unfold State.settleEntry
  split
  · split <;> exact h.issueSettle k _ hF hw
  · exact h.batchSettled b hF hw

theorem settleAfter (h : EngineRules K M F) {a o s} {b : Batch} (k : Nat) (st : SettleStep) (hF : F a (some o) s)
    (hw : s.writesFor a o b.origin) : M (s.settleAfter b k st) := by
  unfold State.settleAfter
  split
  · split
    · exact h.issueSettle k _ hF hw
    · exact h.settleEntry _ hF hw
  · split
    · exact h.issueSettle k _ hF hw
    · exact h.settleEntry _ hF hw
  · split
    · exact h.issueSettle k _ hF hw
    · exact h.settleEntry _ hF hw
  · exact h.settleEntry _ hF hw
  · exact h.settleEntry _ hF hw

theorem writesFor_of_op {s t : State} {a : Bool} {o ob : Origin} (hw : s.writesFor a o ob) (ht : t.op = s.op) : t.writesFor a o ob := by
  unfold State.writesFor
  rw [ht]
  exact hw

theorem settleFailed (h : EngineRules K M F) {a o s} {b : Batch} (k : Nat) (st : SettleStep) (hF : F a (some o) s)
    (hw : s.writesFor a o b.origin) : M (s.settleFailed b k st) := by
  unfold State.settleFailed
  dsimp only
  split
  · have hin := SameInside.addFault (s.setPosition ((b.channelAt k).getD 0) (b.predAt k))
      (b.faultRecord .promoteFault (b.settleSlot k .promote) (b.channelAt k))
    exact h.issueSettle (b := b.withFault k .promoteFault) k _ (h.freeOutside (h.freePosition _ _ hF) hin) (writesFor_of_op hw hin.op)
  · have hin := SameInside.addFault s (b.faultRecord .retireFault (b.settleSlot k .retirePred) (b.channelAt k))
    exact h.issueSettle (b := b.withFault k .retireFault) k _ (h.freeOutside hF hin) (writesFor_of_op hw hin.op)
  · have hin := SameInside.addFault s (b.faultRecord .retireFault (b.settleSlot k st) (b.channelAt k))
    exact h.issueSettle (b := b.withFault k .retireFault) k _ (h.freeOutside hF hin) (writesFor_of_op hw hin.op)

theorem switched_free (h : EngineRules K M F) {a o s} (b : Batch) (l : List (Entry × Nat)) (hF : F a o s) : F a o (s.switched b l) := by
  induction l generalizing s with
  | nil => exact hF
  | cons x l ih => exact ih (h.freePosition _ _ hF)

/-- The batch of the current operation is written for the operation's request. -/
theorem writesFor_of_batch {s : State} {b : Batch} (hb : s.batch? = some b) :
    s.noErase ∧ ∃ o, s.op.origin? = some o ∧ s.writesFor s.op.alone o b.origin := by
  refine ⟨noErase_of_batch hb, ?_⟩
  rw [State.batch?_eq_some] at hb
  obtain h | ⟨r, h, -⟩ := hb
  · rw [h]
    exact ⟨_, rfl, .inl ⟨⟨b, h⟩, rfl⟩⟩
  · rw [h]
    exact ⟨_, rfl, .inr ⟨r, h, rfl, rfl⟩⟩

end EngineRules

end Sys2Proof.Machine
end

section
/-! PROOF. What the engine does with its records, continued: batches and erases that begin and end, configuration writes, RESTART
and the start rule. -/

namespace Sys2Proof.Machine

open Sys2Proof

/-- The current operation issues no program while it is IDLE. -/
theorem issues_of_idle {s : State} (h : s.op = .idle) (p : Program) : s.issues p = false := by
  unfold State.issues
  rw [h]

theorem switchIndex_op (s : State) (b : Batch) : (s.switchIndex b).op = s.op :=
  (congrArg State.op (switched_index s b b.entries.zipIdx) :)

namespace EngineRules

variable {K : Prop} {M : State → Prop} {F : Bool → Option Origin → State → Prop}

/-- An engine without an operation is free. -/
theorem freeIdle (h : EngineRules K M F) {s : State} {a : Bool} (hM : M s) (hi : s.op = .idle) (ha : a = true → s.suspended = none) :
    F a none s := by
  have hF := h.free (a := a) hM (fun e he => by rw [hi] at he; cases he) (fun e => .inr (ha e)) (issues_of_idle hi)
  rw [hi] at hF
  exact hF

/-! ## The beginning of a batch -/

theorem freeAllocateFor (h : EngineRules K M F) {a o s} {n : Nat} (hF : F a o s) : F a o (s.allocateFor (s.placement n)) := by
  have fresh : ∀ g, s.placement n = .inFresh g → g < 32 := by
    intro g hg
    unfold State.placement at hg
    cases hx : s.allocatable with
    | none =>
      rw [hx] at hg
      dsimp only at hg
      split at hg
      · split at hg <;> cases hg
      · cases hg
    | some x =>
      rw [hx] at hg
      obtain ⟨hlt, -⟩ := allocatable_some hx
      dsimp only at hg
      split at hg
      · split at hg
        · cases hg
        · exact Placement.inFresh.inj hg ▸ hlt
      · exact Placement.inFresh.inj hg ▸ hlt
  unfold State.allocateFor
  split
  · rename_i g hg
    exact h.freeAllocate (fresh g hg) hF
  · exact hF
  · exact hF

theorem beginBatch (h : EngineRules K M F) {a o s} (es : List Entry) (n : Nat) {f : Batch → CurrentOp} (hF : F a (some o) s)
    (hf : ∀ (t : State) (b : Batch), b.origin = o → t.op = f b → t.writesFor a o b.origin) :
    M (s.beginBatch o es (s.placement n) f) := by
  have h1 := h.freeAllocateFor (n := n) hF
  unfold State.beginBatch
  generalize s.allocateFor (s.placement n) = u at h1 ⊢
  exact h.issueWrite 0 (h.freeOp (f (u.newBatch o es s.issueNow)) (h.freeRest (some (s.issueNow + 1)) u.config u.opState u.cfgBank h1))
    (hf _ _ rfl rfl)

theorem startCommit (h : EngineRules K M F) {a o s} (es : List Entry) (hi : s.op = .idle) (hF : F a (some o) s) : M (s.startCommit o es) := by
  have refused : ∀ (st : Status) (r : List Byte), M (s.replyStored o .commit st r) := fun st r =>
    h.idle (h.freeOutside hF (SameInside.replyStored ..)) ((SameInside.replyStored ..).op.trans hi)
  unfold State.startCommit
  split
  · exact refused _ _
  · split
    · exact refused _ _
    · split
      · exact refused _ _
      · exact h.beginBatch es _ hF fun t b ho hb => .inl ⟨⟨b, hb⟩, ho⟩

/-! ## Reclaim -/

theorem startReclaim (h : EngineRules K M F) {o s} (g : Nat) (hi : s.op = .idle) (hF : F true (some o) s) : M (s.startReclaim o g) := by
  unfold State.startReclaim
  dsimp only
  split
  · exact h.relocateNext _ (h.freeSetState _ (by decide) (by decide) hF)
  · exact h.relocateNext _ hF
  · exact h.relocateNext _ hF
  · exact h.idle (h.freeOutside hF (SameInside.replyStored ..)) ((SameInside.replyStored ..).op.trans hi)

theorem startRelocation (h : EngineRules K M F) {s} {r : ReclaimRec} (es : List Entry) (hF : F true (some r.origin) s) :
    M (s.startRelocation r es) := by
  unfold State.startRelocation
  split
  · exact h.endReclaim _ _ _ hF
  · split
    · exact h.endReclaim _ _ _ hF
    · exact h.beginBatch es _ hF fun t b ho hb => .inr ⟨_, hb, rfl, rfl⟩

theorem sourceRead (h : EngineRules K M F) {s} {r : ReclaimRec} (x : Source) (rest : List Source) (es : List Entry) (res : ReadResult)
    (hF : F true (some r.origin) s) : M (s.sourceRead r x rest es res) := by
  have goes : ∀ (r1 : ReclaimRec) (images : List Entry), r1.origin = r.origin →
      M (if r1.abandoned = true then s.endReclaim r1 .abandoned { seg := r1.seg }
        else
          match rest with
          | y :: ys =>
            ({ s with op := .reclaim { r1 with stage := .reading (y :: ys) images } } : State).claimRead
              (.slot { seg := r1.seg, slot := y.slot })
          | [] => if images.isEmpty = true then s.relocateNext r1 else s.startRelocation r1 images) := by
    intro r1 images ho
    rw [← ho] at hF
    split
    · exact h.endReclaim _ _ _ hF
    · split
      · exact h.read _ hF ⟨rfl, rfl⟩
      · split
        · exact h.relocateNext _ hF
        · exact h.startRelocation _ hF
  unfold State.sourceRead
  exact goes _ _ (by split <;> rfl)

/-! ## The end of a program of a batch -/

theorem writeDone (h : EngineRules K M F) {s} (pass : Bool) (hM : M s) (hF : s.noErase → F s.op.alone s.op.origin? s) :
    M (s.writeDone pass) := by
  unfold State.writeDone
  split
  · rename_i b hb
    obtain ⟨hn, o, ho, hw⟩ := writesFor_of_batch hb
    have hf := hF hn
    rw [ho] at hf
    split
    · rename_i k _
      split
      · exact h.issueWrite _ hf hw
      · have hin := SameInside.addFault s (b.faultRecord .writeFault (b.own k) (b.channelAt k))
        exact h.issueVoid _ _ _ (h.freeOutside hf hin) (writesFor_of_op hw hin.op)
    · exact hM
  · exact hM

theorem sealDone (h : EngineRules K M F) {s} (pass : Bool) (hM : M s) (hF : s.noErase → F s.op.alone s.op.origin? s) :
    M (s.sealDone pass) := by
  unfold State.sealDone
  split
  · rename_i b hb
    obtain ⟨hn, o, ho, hw⟩ := writesFor_of_batch hb
    have hf := hF hn
    rw [ho] at hf
    split
    · split
      · exact h.settleEntry _ (h.switched_free b _ hf) (writesFor_of_op hw (switchIndex_op s b))
      · have hin := SameInside.addFault s (b.faultRecord .sealFault b.sealSlot none)
        exact h.issueVoid _ _ _ (h.freeOutside hf hin) (writesFor_of_op hw hin.op)
    · exact hM
  · exact hM

theorem settleDone (h : EngineRules K M F) {s} (pass : Bool) (hM : M s) (hF : s.noErase → F s.op.alone s.op.origin? s) :
    M (s.settleDone pass) := by
  unfold State.settleDone
  split
  · rename_i b hb
    obtain ⟨hn, o, ho, hw⟩ := writesFor_of_batch hb
    have hf := hF hn
    rw [ho] at hf
    split
    · split
      · exact h.settleAfter _ _ hf hw
      · exact h.settleFailed _ _ hf hw
    · exact hM
  · exact hM

theorem faultSegment_op (s : State) (g : Nat) : (s.faultSegment g).op = s.op := by
  unfold State.faultSegment
  split <;> rfl

theorem voidDone (h : EngineRules K M F) {s} (pass : Bool) (hM : M s) (hF : s.noErase → F s.op.alone s.op.origin? s) :
    M (s.voidDone pass) := by
  unfold State.voidDone
  split
  · rename_i b hb
    obtain ⟨hn, o, ho, hw⟩ := writesFor_of_batch hb
    have hf := hF hn
    rw [ho] at hf
    have faulted : ∀ (r : FaultRecord) (g : Nat), F s.op.alone (some o) ((s.addFault r).faultSegment g) ∧
        ((s.addFault r).faultSegment g).writesFor s.op.alone o b.origin := fun r g =>
      ⟨h.freeFaulted g (h.freeOutside hf (SameInside.addFault s r)),
        writesFor_of_op hw ((faultSegment_op _ g).trans (SameInside.addFault s r).op)⟩
    split
    · split
      · exact h.issueVoid _ _ _ hf hw
      · obtain ⟨hf', hw'⟩ := faulted (b.faultRecord .voidFault _ _) b.seg
        exact h.issueVoid _ _ _ hf' hw'
    · split
      · exact h.settleAfter _ _ hf hw
      · obtain ⟨hf', hw'⟩ := faulted (b.faultRecord .voidFault (b.settleSlot _ _) (b.channelAt _)) (b.settleSlot _ _).seg
        exact h.settleAfter _ _ hf' hw'
    · exact hM
  · exact hM

/-! ## The end of a stamp -/

theorem stampEnds (h : EngineRules K M F) {s} {p : Program} (pass : Bool) (hM : M s) (hp : s.program = some p) (hr : p.role = .stamp) :
    M ((s.endProgram p pass).stampEnds pass) := by
  have ends : ∀ {u t : State} {e : EraseRec}, F true (some e.origin) u → u.op = .erase e → SameInside u t → M t.discardErase := by
    intro u t e hF he ht
    unfold State.discardErase
    rw [ht.op, he]
    exact h.endReply hF ht
  have reply : ∀ (u : State) (e : EraseRec) (st : Status) (r : EraseResult), SameInside u (u.replyErase e st r) := by
    intro u e st r
    unfold State.replyErase
    split <;> exact SameInside.replyStored ..
  unfold State.stampEnds
  split
  · rename_i e he
    have hF : ∀ x : SegState, x ≠ .opened → x ≠ .erasing →
        F true (some e.origin) ((s.endProgram p pass).setSegFill e.seg x 0) := fun x hx hx' => h.stampEnded pass x hM hp hr he hx hx'
    unfold State.stampDone
    split
    · exact ends (h.freeInUse e.seg 0 (hF .clean (by decide) (by decide))) he (reply ..)
    · exact ends (hF .torn (by decide) (by decide)) he ((SameInside.addFault ..).trans (reply ..))
  · exact h.ended pass hM hp

/-! ## Configuration writes -/

theorem endConfig (h : EngineRules K M F) {a o s} (x : Origin) (st : Status) (r : SetConfigResult) (hF : F a o s) : M (s.endConfig x st r) :=
  h.endReply hF (SameInside.replyStored ..)

theorem beginConfigWrite (h : EngineRules K M F) {a s} (w : ConfigWrite) (hx : s.op.fits a (some w.origin)) (hF : F a (some w.origin) s) :
    M (s.beginConfigWrite w) := by
  unfold State.beginConfigWrite
  split
  · rename_i g _
    exact h.program (x := .configWrite { w with step := .writing, issue := some s.issueNow, slot := some ⟨g.id, s.fillOf g.id⟩ })
      (h.freeRest (some (s.issueNow + 1)) s.config s.opState s.cfgBank (h.freeBumpFill g.id hF)) rfl
      fun _ => by simp [State.issues, ConfigWrite.issues]
  · exact h.back hF hx

theorem openConfigSegment_op (s : State) (g : CfgSeg) : (s.openConfigSegment g).op = s.op := by
  unfold State.openConfigSegment
  split
  · split <;> rfl
  · rfl

theorem rotate (h : EngineRules K M F) {a s} {w : ConfigWrite} (hx : s.op.fits a (some w.origin)) (hF : F a (some w.origin) s) :
    M (s.rotate w) := by
  have goes : ∀ room : Bool,
      M (if room = true then s.beginConfigWrite w
        else
          match s.leastWorn (s.rotationCandidates.filter (fun g => s.segIs g.id .clean)) with
          | some g => (s.openConfigSegment g).beginConfigWrite w
          | none =>
            match s.rotationTarget s.rotationCandidates with
            | some g =>
              if s.worn g.id = true then s.endConfig w.origin .worn { seg := some g.id, erases := some (s.erasesOf g.id) }
              else
                { s.setSegFill g.id .torn 0 with
                  cfgBank := { s.cfgBank with state := .eraseRunning }
                  op := .configWrite { w with step := .erasing, target := some g, rotated := true } }
            | none => s) := by
    intro room
    split
    · exact h.beginConfigWrite w hx hF
    · split
      · rename_i g _
        exact h.beginConfigWrite w ((openConfigSegment_op s g).symm ▸ hx) (h.freeOpenCfg g hF)
      · split
        · split
          · exact h.endConfig _ _ _ hF
          · rename_i g _ _
            exact h.set (h.freeRest s.issue s.config s.opState { s.cfgBank with state := .eraseRunning }
              (h.freeSetFill g.id (x := .torn) 0 (by decide) (by decide) hF)) rfl
        · exact h.back hF hx
  unfold State.rotate
  exact goes _

theorem startSetConfig (h : EngineRules K M F) {a o s} (i : ConfigImage) (hx : s.op.fits a (some o)) (hF : F a (some o) s) :
    M (s.startSetConfig o i) := by
  unfold State.startSetConfig
  split
  · exact h.endConfig _ _ _ hF
  · split
    · exact h.endConfig _ _ _ hF
    · split
      · exact h.endConfig _ _ _ hF
      · exact h.rotate hx hF

theorem configErased (h : EngineRules K M F) {a s} {w : ConfigWrite} {g : CfgSeg} (ht : w.target = some g) (hF : F a (some w.origin) s) :
    M (s.configErased w g) := by
  unfold State.configErased
  exact h.program (h.freeStore (s := s.bumpErases g.id) (fun hw => Store.erased_wf g.id hw) (h.freeBumpErases g.id hF)) rfl
    fun _ => by simp [State.issues, ConfigWrite.issues, ht]

theorem rotationFailed (h : EngineRules K M F) {a o s} (w : ConfigWrite) (g : CfgSeg) (c : FailureCause) (hF : F a o s) :
    M (s.rotationFailed w g c) :=
  h.endReply hF ((SameInside.addFault ..).trans (SameInside.replyStored ..))

theorem configStopped (h : EngineRules K M F) {a o s} (w : ConfigWrite) (g : CfgSeg) (hF : F a o s) : M (s.configStopped w g) :=
  h.rotationFailed w g _ (h.freeRest s.issue s.config s.opState { s.cfgBank with state := .free }
    (h.freeStore (fun hw => Store.torn_wf g.id hw) hF))

theorem configStampDone (h : EngineRules K M F) {a s} {w : ConfigWrite} (pass : Bool) (g : CfgSeg) (hx : s.op.fits a (some w.origin))
    (hF : F a (some w.origin) s) : M (s.configStampDone pass w g) := by
  unfold State.configStampDone
  split
  · exact h.beginConfigWrite w ((openConfigSegment_op s g).symm ▸ hx) (h.freeOpenCfg g hF)
  · exact h.rotationFailed _ _ _ hF

theorem configEnds (h : EngineRules K M F) {s} (role : ProgramRole) (pass : Bool) (hM : M s)
    (hF : s.noErase → F s.op.alone s.op.origin? s) : M (s.configEnds role pass) := by
  unfold State.configEnds
  split
  · rename_i w hw
    have hf := hF (fun e he => by rw [hw] at he; cases he)
    have hx : s.op.fits s.op.alone (some w.origin) := by rw [hw]; rfl
    have hf' : F s.op.alone (some w.origin) s := by rw [hw] at hf ⊢; exact hf
    split
    · exact h.configStampDone pass _ hx hf'
    · unfold State.configWriteDone
      split
      · exact h.endConfig _ _ _ (h.freeRest s.issue _ s.opState s.cfgBank hf)
      · rename_i a n _ hs _ _
        exact h.program (h.freeOutside hf' (SameInside.addFault ..)) rfl fun _ => by simp [State.issues, ConfigWrite.issues, hs]
    · unfold State.configVoidDone
      dsimp only
      split
      · exact h.endConfig _ _ _ hf
      · exact h.endConfig _ _ _ (h.freeOutside hf (SameInside.addFault ..))
    · exact hM
  · exact hM

/-! ## What follows a program -/

theorem afterProgram (h : EngineRules K M F) {s} {p : Program} (pass : Bool) (hM : M s) (hp : s.program = some p) :
    M ((s.endProgram p pass).afterProgram p.role pass) := by
  have jobs := sameJobs_endProgram s p pass
  have hM' := h.ended pass hM hp
  have hF : (s.endProgram p pass).noErase →
      F (s.endProgram p pass).op.alone (s.endProgram p pass).op.origin? (s.endProgram p pass) := by
    intro hn
    have hs : s.noErase := fun e he => by
      obtain ⟨e', he', -⟩ := jobs.erase he
      exact hn e' he'
    rw [jobs.op_eq hs]
    exact h.endedFree pass hM hp hs
  have mount : ∀ m, (s.endProgram p pass).op = .mount m → m.repairs ≠ [] →
      (K → m.phase = .repair) ∧ F true none (s.endProgram p pass) := by
    intro m hm _
    have hs : s.noErase := fun e he => by
      obtain ⟨e', he', -⟩ := jobs.erase he
      rw [hm] at he'
      cases he'
    have hop := jobs.op_eq hs
    have hf := h.endedFree pass hM hp hs
    rw [hop] at hm
    refine ⟨fun k => ?_, ?_⟩
    · have hi := h.issued k hM hp
      simp only [State.issues, hm, Bool.and_eq_true, decide_eq_true_eq] at hi
      exact hi.1
    · rw [hm] at hf
      exact hf
  unfold State.afterProgram
  split
  · exact h.writeDone pass hM' hF
  · exact h.sealDone pass hM' hF
  · exact h.settleDone pass hM' hF
  · exact h.voidDone pass hM' hF
  · rename_i hr
    exact h.stampEnds pass hM hp hr
  · exact h.configEnds _ pass hM' hF
  · exact h.configEnds _ pass hM' hF
  · exact h.configEnds _ pass hM' hF
  · exact h.repairDone pass hM' mount

/-! ## Restart -/

theorem sameInside_cancelAll (qs : List QueuedRequest) (n : Nat) (s : State) : SameInside s (State.cancelAll qs n s).1 := by
  induction qs generalizing n s with
  | nil => exact SameInside.refl s
  | cons q qs ih => exact (SameInside.replyAwaited s q.origin q.kind.reqKind .cancelled).trans (ih _ _)

/-- The mount begins in a state just reset. -/
theorem beginMount (h : EngineRules K M F) {s} (hF : F true none s) : M s.beginMount :=
  h.read (.header 0) (h.freeRest s.issue s.config .mounting s.cfgBank hF) rfl

theorem internalReset (h : EngineRules K M F) {s : State} (hM : M (s.volatileReset .mounting)) : M s.internalReset :=
  h.beginMount (h.freeIdle (a := true) hM rfl fun _ => rfl)

theorem startRestart (h : EngineRules K M F) {o s} (hF : F true (some o) s) : M (s.startRestart o) := by
  have hq : F true (some o) { s with queue := [] } := h.freeDrop (List.nil_sublist _) hF
  have hc := h.freeOutside hq (sameInside_cancelAll s.queue 0 _)
  unfold State.startRestart
  generalize State.cancelAll s.queue 0 { s with queue := [] } = x at hc
  obtain ⟨s1, n⟩ := x
  have h2 := h.freeOutside hc (SameInside.replyAwaited s1 o .restart .done)
  dsimp only
  generalize (if s1.replyRoom o.port = true then n + 1 else n) = n1
  by_cases e : n1 = 0
  · rw [if_pos e]
    exact h.internalReset (h.freeReset .mounting h2)
  · rw [if_neg e]
    exact h.set h2 ⟨rfl, rfl⟩

theorem awaitedSent (h : EngineRules K M F) {s} (hM : M s) : M s.awaitedSent := by
  unfold State.awaitedSent
  split
  · rename_i r hr
    split
    · exact h.internalReset (h.reset .mounting hM)
    · have hF := h.free (a := true) hM (fun e he => by rw [hr] at he; cases he) (fun _ => .inl (by rw [hr]; rfl))
        (fun p => by simp [State.issues, hr])
      rw [hr] at hF
      exact h.set hF ⟨rfl, rfl⟩
  · exact hM

/-! ## The start rule -/

theorem startRequest (h : EngineRules K M F) {a s} {q : QueuedRequest} (ha : a = true ∨ q.kind.urgent = true) (hi : s.op = .idle)
    (hF : F a (some q.origin) s) : M (s.startRequest q) := by
  unfold State.startRequest
  have alone : q.kind.urgent = false → F true (some q.origin) s := fun hu => by
    obtain rfl | hu' := ha
    · exact hF
    · rw [hu] at hu'
      cases hu'
  split
  · exact h.startCommit _ hi hF
  · rename_i hk
    exact h.checkErase _ _ (alone (by rw [hk]; rfl))
  · rename_i hk
    exact h.startReclaim _ hi (alone (by rw [hk]; rfl))
  · exact h.startSetConfig _ (by rw [hi]; trivial) hF
  · rename_i hk
    exact h.startRestart (alone (by rw [hk]; rfl))

theorem runStart (h : EngineRules K M F) (n : Nat) {s} (hM : M s) : M (State.runStart n s) := by
  induction n generalizing s with
  | zero => exact hM
  | succ n ih =>
    unfold State.runStart
    split
    · rename_i hi
      split
      · rename_i hs
        split
        · exact hM
        · rename_i q qs hq
          have hF : F true none s := h.freeIdle hM hi fun _ => hs
          exact ih (h.startRequest (.inl rfl) hi (h.freeTake hq hF))
      · rename_i e hs
        have again := h.resume hM hi hs
        have hF : F false none s := h.freeIdle hM hi fun e => by cases e
        split
        · rename_i q qs hq
          split
          · rename_i hu
            exact ih (h.startRequest (.inr hu) hi (h.freeTake hq hF))
          · exact again
        · exact again
    · rename_i e he
      split
      · rename_i q qs hst hq
        split
        · rename_i hu
          have hF := h.suspend hM he hst
          exact ih (h.startRequest (.inr hu) rfl (h.freeTake (s := { s with suspended := some e, op := .idle }) hq hF))
        · exact hM
      · exact hM
    · exact hM

theorem engineNext (h : EngineRules K M F) {s} (hM : M s) : M s.engineNext :=
  h.runStart _ hM

end EngineRules

/-! ## No erase left suspended -/

/-- The engine does not stand IDLE beside a suspended erase. -/
def State.idleAlone (s : State) : Prop :=
  s.op = .idle → s.suspended = none

theorem idleAlone_of_op {s : State} {x : CurrentOp} (h : s.op = x) (hx : x ≠ .idle) : s.idleAlone :=
  fun hi => absurd (h.symm.trans hi) hx

theorem runStart_idleAlone (n : Nat) (s : State) (hl : s.queue.length < n) : (State.runStart n s).idleAlone := by
  induction n generalizing s with
  | zero => omega
  | succ n ih =>
    have next : ∀ (u : State) (q : QueuedRequest) (qs : List QueuedRequest), s.queue = q :: qs → u.queue = qs →
        (State.runStart n (u.startRequest q)).idleAlone := fun u q qs hq hu => by
      refine ih _ (Nat.lt_of_le_of_lt ((queueLength_engine u.queue.length).startRequest q (Nat.le_refl _)) ?_)
      rw [hq, List.length_cons] at hl
      rw [hu]
      omega
    unfold State.runStart
    split
    · split
      · rename_i hs
        split
        · exact fun _ => hs
        · rename_i q qs hq
          exact next _ q qs hq rfl
      · split
        · rename_i q qs hq
          split
          · exact next _ q qs hq rfl
          · exact idleAlone_of_op rfl CurrentOp.noConfusion
        · exact idleAlone_of_op rfl CurrentOp.noConfusion
    · rename_i e hop
      split
      · rename_i q qs _ hq
        split
        · exact next _ q qs hq rfl
        · exact idleAlone_of_op hop CurrentOp.noConfusion
      · exact idleAlone_of_op hop CurrentOp.noConfusion
    · rename_i hne _
      exact fun hi => absurd hi hne

theorem engineNext_idleAlone (s : State) : s.engineNext.idleAlone :=
  runStart_idleAlone _ s (Nat.lt_succ_self _)

end Sys2Proof.Machine
end

section
/-! PROOF. Every command keeps what the rules of the engine keep: the requests, the forwarding of frames and the events, said once. -/

namespace Sys2Proof.Machine

open Sys2Proof

/-! ## Between two operations -/

/-- A state that satisfies a predicate, and under `D` leaves no erase suspended beside an IDLE engine. -/
def Calm (D : Prop) (M : State → Prop) (s : State) : Prop :=
  M s ∧ (D → s.idleAlone)

section

variable {D : Prop} {M : State → Prop} {s t : State}

theorem Calm.jobs (h : Calm D M s) (ht : M t) (hj : SameJobs s t) : Calm D M t :=
  ⟨ht, fun d hi => hj.suspended_none (h.2 d (hj.idle hi))⟩

theorem Calm.of_op (ht : M t) {x : CurrentOp} (hx : t.op = x) (hne : x ≠ .idle) : Calm D M t :=
  ⟨ht, fun _ => idleAlone_of_op hx hne⟩

/-- An operation other than IDLE stands through the operations of the banks. -/
theorem Calm.through (ht : M t) (hj : SameJobs s t) {x : CurrentOp} (hx : s.op = x) (hne : x ≠ .idle) : Calm D M t :=
  ⟨ht, fun _ hi => absurd ((hj.idle hi).symm.trans hx).symm hne⟩

end

/-- The operations of the banks leave an IDLE lookup stage IDLE. -/
theorem stageIdle_stable (p : Port) : StableBanks (fun s => s.stages.get p = .idle) where
  inner _ _ _ _ _ _ h := h
  started s q h := by
    by_cases hq : q = p
    · subst hq
      rw [h]
      exact PerPort.get_set_same ..
    · exact (PerPort.get_set_other _ _ (Ne.symm hq)).trans h

/-- Without a suspended erase none comes up in a bank. -/
theorem notSuspended_stable : StableJobs (fun s => s.suspended = none) where
  inner _ _ _ _ _ h := h
  progress s f _ h := by
    unfold State.mapErase
    split
    · exact h
    · exact congrArg (Option.map f) h

theorem notSuspended_nextRepair {s : State} (m : Mount) (h : s.suspended = none) : (s.nextRepair m).suspended = none := by
  unfold State.nextRepair
  split
  · exact notSuspended_stable.claimProgram _ h
  · rw [enter_segs]
    exact h

theorem notSuspended_resolve {s : State} (m : Mount) (h : s.suspended = none) : (s.resolve m).suspended = none := by
  rw [resolve_eq, resolved_segs]
  exact notSuspended_nextRepair _ h

theorem notSuspended_beginSlotScan {s : State} (m : Mount) (h : s.suspended = none) : (s.beginSlotScan m).suspended = none := by
  unfold State.beginSlotScan
  split
  · exact notSuspended_stable.claimRead _ h
  · exact notSuspended_resolve m h

theorem notSuspended_headerScanned {s : State} (m : Mount) (r : Option Nat) (h : s.suspended = none) :
    (s.headerScanned m r).suspended = none := by
  unfold State.headerScanned
  dsimp only
  split
  · exact notSuspended_stable.claimRead _ h
  · refine notSuspended_beginSlotScan _ ?_
    rw [setAllErases_eq, setSegs_segs]
    exact h

theorem notSuspended_slotScanned {s : State} (m : Mount) (h : s.suspended = none) : (s.slotScanned m).suspended = none := by
  unfold State.slotScanned
  split
  · exact notSuspended_stable.claimRead _ h
  · exact notSuspended_resolve m h

namespace EngineRules

variable {K D : Prop} {M : State → Prop} {F : Bool → Option Origin → State → Prop}

theorem calmNext (h : EngineRules K M F) {s} (hs : M s) : Calm D M s.engineNext :=
  ⟨h.engineNext hs, fun _ => engineNext_idleAlone s⟩

theorem calmOutside (h : EngineRules K M F) {s t} (ht : SameInside s t) (hs : Calm D M s) : Calm D M t :=
  hs.jobs (h.outside hs.1 ht) ht.jobs

theorem calmReply (h : EngineRules K M F) {s} (o : Origin) (k : ReqKind) (st : Status) (r : List Byte) (hs : Calm D M s) :
    Calm D M (s.replyStored o k st r) :=
  h.calmOutside (SameInside.replyStored ..) hs

theorem calmReplyRead (h : EngineRules K M F) {s} (o : Origin) (k : Byte) (st : Status) (r : List Byte) (hs : Calm D M s) :
    Calm D M (s.replyRead o k st r) :=
  h.calmOutside (SameInside.replyRead ..) hs

theorem calmCount (h : EngineRules K M F) {s} (p : Port) (c : Counter) (hs : Calm D M s) : Calm D M (s.count p c) :=
  h.calmOutside (SameInside.count ..) hs

/-! ## Requests -/

theorem offer (h : EngineRules K M F) {s} {o : Origin} (k : QueuedKind) (hp : s.inProgress o = false) (hs : Calm D M s) :
    Calm D M (s.offer o k) := by
  have hq := h.enqueue k hs.1 hp
  unfold State.offer
  split
  · exact h.calmReply _ _ _ _ hs
  · split
    · exact h.calmReply _ _ _ _ hs
    · split
      · rename_i he
        rw [List.isEmpty_iff.1 he] at hq
        exact h.calmNext hq
      · exact hs.jobs hq (.of_eq rfl rfl)

theorem doReadSlot (h : EngineRules K M F) {s} (o : Origin) (ps : List Byte) (hs : Calm D M s) : Calm D M (s.doReadSlot o ps) := by
  unfold State.doReadSlot
  split
  · split
    · unfold State.startReadSlot
      dsimp only
      split
      · rename_i hr
        exact hs.jobs (h.readSlotStarts _ _ hs.1 hr) (.of_eq rfl rfl)
      · exact h.calmReplyRead _ _ _ _ hs
    · exact h.calmReplyRead _ _ _ _ hs
  · exact h.calmReplyRead _ _ _ _ hs

theorem doReadIndex (h : EngineRules K M F) {s} (o : Origin) (ps : List Byte) (hs : Calm D M s) : Calm D M (s.doReadIndex o ps) := by
  unfold State.doReadIndex
  split
  · dsimp only
    split <;> exact h.calmReplyRead _ _ _ _ hs
  · exact h.calmReplyRead _ _ _ _ hs

theorem doReadCounters (h : EngineRules K M F) {s} (o : Origin) (ps : List Byte) (hs : Calm D M s) :
    Calm D M (s.doReadCounters o ps) := by
  unfold State.doReadCounters
  split
  · split
    · split <;> exact h.calmReplyRead _ _ _ _ hs
    · exact h.calmReplyRead _ _ _ _ hs
  · exact h.calmReplyRead _ _ _ _ hs

theorem doClearCounters (h : EngineRules K M F) {s} (o : Origin) (b : Byte) (hs : Calm D M s) : Calm D M (s.doClearCounters o b) := by
  unfold State.doClearCounters
  split
  · rename_i p _
    have hc : SameInside s { s with counters := s.counters.set p Counters.zero } := rfl
    exact h.calmReply _ _ _ _ (h.calmOutside hc hs)
  · exact h.calmReply _ _ _ _ hs

theorem doStage (h : EngineRules K M F) {s} (o : Origin) (ps : List Byte) (hs : Calm D M s) : Calm D M (s.doStage o ps) := by
  unfold State.doStage
  split
  · split
    · exact h.calmReply _ _ _ _ hs
    · unfold State.stageImages
      split
      · exact h.calmReply _ _ _ _ hs
      · split
        · exact h.calmReply _ _ _ _ hs
        · split
          · exact h.calmReply _ _ _ _ hs
          · split
            · exact h.calmReply _ _ _ _ hs
            · unfold State.acceptStage
              dsimp only
              exact h.calmReply _ _ _ _ (h.calmOutside (s := s) rfl hs)
  · exact h.calmReply _ _ _ _ hs

theorem doUnstage (h : EngineRules K M F) {s} (o : Origin) (hs : Calm D M s) : Calm D M (s.doUnstage o) := by
  unfold State.doUnstage
  split
  · exact h.calmReply _ _ _ _ hs
  · have hc : SameInside s { s with staging := Staging.reset } := rfl
    exact h.calmReply _ _ _ _ (h.calmOutside hc hs)

/-! ## Abandonment -/

theorem eraseStopped_ends (h : EngineRules K M F) {s} {e e' : EraseRec} (c : StopCause) (hs : M s) (he : s.erases e)
    (hst : e.step ≠ .stamping) (hb : e'.bare = e.bare) (hst' : e'.step = e.step) : M (s.eraseStopped c e') := by
  have reply : ∀ (u : State) (st : Status) (r : EraseResult), SameInside u (u.replyErase e' st r) := by
    intro u st r
    unfold State.replyErase
    split <;> exact SameInside.replyStored ..
  unfold State.eraseStopped
  split
  · exact h.ends hs he hst hb hst' ((SameInside.addFault ..).trans (reply ..))
  · exact h.ends hs he hst hb hst' ((SameInside.addFault ..).trans (reply ..))

theorem abandonErase (h : EngineRules K M F) {s} (o : Origin) {e : EraseRec} (he : s.erases e) (hs : Calm D M s) :
    Calm D M (s.abandonErase o e) := by
  have answer : ∀ {u : State}, Calm D M u → Calm D M (u.answerAbandon o .done) := fun hu => h.calmReply _ _ _ _ hu
  have ended : e.step ≠ .stamping → Calm D M ((s.eraseAbandoned e).answerAbandon o .done).engineNext := fun hst =>
    h.calmNext (h.outside (h.eraseStopped_ends .abandon hs.1 he hst rfl rfl) (SameInside.replyStored ..))
  have stops : e.step = .running ∨ e.step = .waiting →
      Calm D M (s.mapErase (fun x => { x with step := .stopping .abandon, runTimer := false })) := fun hst =>
    hs.jobs (h.stops .abandon hs.1 he hst) (sameJobs_mapErase s fun _ => rfl)
  unfold State.abandonErase
  split
  · rename_i hst
    exact ended (by rw [hst]; exact EraseStep.noConfusion)
  · rename_i hst
    exact ended (by rw [hst]; exact EraseStep.noConfusion)
  · rename_i hst
    exact answer (stops (.inl hst))
  · rename_i hst
    exact answer (stops (.inr hst))
  · refine answer (hs.jobs (h.holds .abandon hs.1) (sameJobs_mapErase s fun x => ?_))
    unfold EraseRec.hold
    split <;> rfl
  · exact h.calmReply _ _ _ _ hs
  · exact h.calmReply _ _ _ _ hs
  · exact h.calmReply _ _ _ _ hs

theorem abandonCurrent (h : EngineRules K M F) {s} (o : Origin) (hs : Calm D M s) : Calm D M (s.abandonCurrent o) := by
  unfold State.abandonCurrent
  split
  · rename_i e he
    exact h.abandonErase o (.inl he) hs
  · rename_i r hr
    exact h.calmReply _ _ _ _ (Calm.of_op (h.abandons hs.1 hr) rfl CurrentOp.noConfusion)
  all_goals exact h.calmReply _ _ _ _ hs

theorem abandonQueued (h : EngineRules K M F) {s} (o : Origin) (q : QueuedRequest) (hs : Calm D M s) : Calm D M (s.abandonQueued o q) := by
  have hd : Calm D M { s with queue := s.queue.filter (fun x => x.origin ≠ q.origin) } :=
    hs.jobs (h.drop List.filter_sublist hs.1) (.of_eq rfl rfl)
  have ha : Calm D M ((({ s with queue := s.queue.filter (fun x => x.origin ≠ q.origin) } : State).replyStored q.origin q.kind.reqKind
      .cancelled []).answerAbandon o .done) := h.calmReply _ _ _ _ (h.calmReply _ _ _ _ hd)
  unfold State.abandonQueued
  dsimp only
  split
  · exact h.calmNext ha.1
  · exact ha

theorem doAbandon (h : EngineRules K M F) {s} (o : Origin) (ps : List Byte) (hs : Calm D M s) : Calm D M (s.doAbandon o ps) := by
  unfold State.doAbandon
  split
  · unfold State.abandonTarget
    split
    · exact h.abandonQueued _ _ hs
    · split
      · exact h.abandonCurrent _ hs
      · rename_i hne
        split
        · rename_i e hsus
          split
          · exact h.abandonErase o (.inr hsus) hs
          · exact h.calmReply _ _ _ _ hs
        · exact h.calmReply _ _ _ _ hs
  · exact h.calmReply _ _ _ _ hs

end EngineRules

end Sys2Proof.Machine
end

section
/-! PROOF. Every command keeps what the rules of the engine keep, continued: dispatch, forwarding, and the commands. -/

namespace Sys2Proof.Machine

open Sys2Proof

theorem inProgress_staging (s : State) (b : Staging) (o : Origin) : ({ s with staging := b } : State).inProgress o = s.inProgress o := rfl

namespace EngineRules

variable {K D : Prop} {M : State → Prop} {F : Bool → Option Origin → State → Prop}

/-! ## The operating state -/

theorem repeatFrame (h : EngineRules K M F) {s} (p : Port) (f : Frame) (hs : Calm D M s) : Calm D M (s.repeatFrame p f) := by
  unfold State.repeatFrame
  split
  · exact h.calmCount _ _ (h.calmOutside (SameInside.placeTraffic ..) hs)
  · exact h.calmCount _ _ hs

theorem calmWithdraw (h : EngineRules K M F) {s} {p : Port} {x : InHand} (hp : s.stages.get p = .waitBank x) (hs : Calm D M s) :
    Calm D M ((s.setStage p .idle).withdrawRead p (bankOf x.addr.seg)) :=
  hs.jobs (h.withdraws hs.1 hp) ((sameJobs_stable s).withdrawRead _ _ ((sameJobs_stable s).setStage _ _ (.refl s)))

theorem stageLeavesRunning (h : EngineRules K M F) {s} (p : Port) (hs : Calm D M s) : Calm D M (s.stageLeavesRunning p) := by
  unfold State.stageLeavesRunning
  split
  · rename_i x hp
    exact h.repeatFrame _ _ (h.calmWithdraw hp hs)
  · rename_i x hp
    exact hs.jobs (h.leaves hs.1 hp) (.of_eq rfl rfl)
  · exact hs

theorem calmOpState (h : EngineRules K M F) {s} (x : OpState) (hs : Calm D M s) : Calm D M { s with opState := x } :=
  hs.jobs (h.levels x s.resetAsserted hs.1) (.of_eq rfl rfl)

theorem setMode (h : EngineRules K M F) {s} (m : Mode) (hs : Calm D M s) : Calm D M (s.setMode m) := by
  unfold State.setMode
  split
  · exact h.calmOpState _ hs
  · split
    · exact h.stageLeavesRunning _ (h.stageLeavesRunning _ (h.stageLeavesRunning _ (h.calmOpState _ hs)))
    · exact h.calmOpState _ hs

theorem doSetMode (h : EngineRules K M F) {s} (o : Origin) (ps : List Byte) (hs : Calm D M s) : Calm D M (s.doSetMode o ps) := by
  unfold State.doSetMode
  split
  · split
    · exact h.calmReply _ _ _ _ (h.setMode _ hs)
    · exact h.calmReply _ _ _ _ hs
  · exact h.calmReply _ _ _ _ hs

/-! ## Queued kinds -/

theorem doCommit (h : EngineRules K M F) {s} {o : Origin} (hp : s.inProgress o = false) (hs : Calm D M s) : Calm D M (s.doCommit o) := by
  unfold State.doCommit
  split
  · exact h.calmReply _ _ _ _ hs
  · split
    · exact h.calmReply _ _ _ _ hs
    · split
      · exact h.calmReply _ _ _ _ hs
      · split
        · exact h.calmReply _ _ _ _ hs
        · exact h.offer _ ((inProgress_staging s _ o).trans hp) (h.calmOutside (s := s) rfl hs)

theorem doErase (h : EngineRules K M F) {s} {o : Origin} (ps : List Byte) (hp : s.inProgress o = false) (hs : Calm D M s) :
    Calm D M (s.doErase o ps) := by
  unfold State.doErase
  split
  · split
    · exact h.offer _ hp hs
    · exact h.calmReply _ _ _ _ hs
  · exact h.calmReply _ _ _ _ hs

theorem doReclaim (h : EngineRules K M F) {s} {o : Origin} (ps : List Byte) (hp : s.inProgress o = false) (hs : Calm D M s) :
    Calm D M (s.doReclaim o ps) := by
  unfold State.doReclaim
  split
  · split
    · exact h.offer _ hp hs
    · exact h.calmReply _ _ _ _ hs
  · exact h.calmReply _ _ _ _ hs

theorem doSetConfig (h : EngineRules K M F) {s} {o : Origin} (ps : List Byte) (hp : s.inProgress o = false) (hs : Calm D M s) :
    Calm D M (s.doSetConfig o ps) := by
  unfold State.doSetConfig
  split
  · exact h.offer _ hp hs
  · exact h.calmReply _ _ _ _ hs

/-! ## Dispatch -/

theorem perform (h : EngineRules K M F) {s} (k : ReqKind) {o : Origin} (ps : List Byte) (hp : s.inProgress o = false) (hs : Calm D M s) :
    Calm D M (s.perform k o ps) := by
  unfold State.perform
  split
  · exact h.calmReplyRead _ _ _ _ hs
  · exact h.calmReplyRead _ _ _ _ hs
  · exact h.doReadSlot _ _ hs
  · exact h.doReadIndex _ _ hs
  · split
    · split
      · exact h.doClearCounters _ _ hs
      · exact h.doReadCounters _ _ hs
    · exact h.doReadCounters _ _ hs
  · exact h.calmReplyRead _ _ _ _ hs
  · exact h.calmReplyRead _ _ _ _ hs
  · exact h.calmReply _ _ _ _ (h.calmOutside (s := s) rfl hs)
  · exact h.doStage _ _ hs
  · exact h.doUnstage _ hs
  · exact h.doAbandon _ _ hs
  · exact h.doSetMode _ _ hs
  · exact h.doCommit hp hs
  · exact h.doErase _ hp hs
  · exact h.doReclaim _ hp hs
  · exact h.doSetConfig _ hp hs
  · exact h.offer _ hp hs

theorem dispatch (h : EngineRules K M F) {s} (r : Request) (hs : Calm D M s) : Calm D M (s.dispatch r) := by
  unfold State.dispatch
  split
  · exact h.calmReplyRead _ _ _ _ hs
  · split
    · exact h.calmReplyRead _ _ _ _ hs
    · rename_i hn
      have hp : s.inProgress r.origin = false := Bool.eq_false_iff.2 hn
      split
      · unfold State.screenKnown
        split
        · split
          · exact h.calmOutside (SameInside.emitReply ..) hs
          · split
            · exact h.perform _ _ hp hs
            · exact h.calmReply _ _ _ _ hs
        · split
          · exact h.perform _ _ hp hs
          · exact h.calmReplyRead _ _ _ _ hs
      · exact h.calmReplyRead _ _ _ _ hs

/-! ## Forwarding -/

theorem handOff (h : EngineRules K M F) {s} (p : Port) (f : Frame) (c : Counter) (hs : Calm D M s) : Calm D M (s.handOff p f c) := by
  unfold State.handOff
  dsimp only
  split
  · unfold State.passManagement
    split
    · exact h.calmCount _ _ (h.calmOutside (SameInside.placeTraffic ..) hs)
    · exact h.calmCount _ _ hs
  · exact h.dispatch _ (h.calmCount _ _ hs)
  · unfold State.passOn
    split
    · exact h.calmOutside (SameInside.placeTraffic ..) (h.dispatch _ (h.calmCount _ _ hs))
    · exact h.dispatch _ (h.calmCount _ _ hs)

theorem noRoute (h : EngineRules K M F) {s} (p : Port) (f : Frame) (hs : Calm D M s) : Calm D M (s.noRoute p f) := by
  unfold State.noRoute
  split
  · exact h.calmCount _ _ (h.calmOutside (SameInside.placeDelivery ..) hs)
  · exact h.calmCount _ _ hs

theorem calmRequestRead (h : EngineRules K M F) {s} {p : Port} (x : InHand) (a : SlotAddr) (hp : s.stages.get p = .idle)
    (hs : Calm D M s) : Calm D M (s.requestRead p x a) :=
  hs.jobs (h.requests x a hs.1 hp) ((sameJobs_stable s).requestRead _ _ _ (.refl s))

theorem judgeFrame (h : EngineRules K M F) {s} {p : Port} (f : Frame) (hp : s.stages.get p = .idle) (hs : Calm D M s) :
    Calm D M (s.judgeFrame p f) := by
  unfold State.judgeFrame
  split
  · exact h.calmCount _ _ hs
  · split
    · exact h.calmCount _ _ hs
    · split
      · exact h.handOff _ _ _ hs
      · unfold State.lookUp
        split
        · exact h.noRoute _ _ hs
        · exact h.calmRequestRead _ _ hp hs

theorem passCopy (h : EngineRules K M F) {s} (p : Port) (r : RouteFields) (f : Frame) (hs : Calm D M s) : Calm D M (s.passCopy p r f) := by
  unfold State.passCopy
  split
  · exact h.calmCount _ _ (h.calmOutside (SameInside.placeTraffic ..) hs)
  · exact hs

theorem deliverCopy (h : EngineRules K M F) {s} (p : Port) (r : RouteFields) (f : Frame) (hs : Calm D M s) :
    Calm D M (s.deliverCopy p r f) :=
  h.calmCount _ _ (h.calmOutside (SameInside.placeDelivery ..) hs)

theorem applyAction (h : EngineRules K M F) {s} (p : Port) (r : RouteFields) (f : Frame) (left : Bool) (hs : Calm D M s) :
    Calm D M (s.applyAction p r f left) := by
  unfold State.applyAction
  split
  · exact h.passCopy _ _ _ hs
  · split
    · exact h.calmCount _ _ hs
    · split
      · exact h.repeatFrame _ _ hs
      · exact h.deliverCopy _ _ _ hs
  · split
    · exact h.passCopy _ _ _ hs
    · split
      · exact h.passCopy _ _ _ hs
      · exact h.deliverCopy _ _ _ (h.passCopy _ _ _ hs)
  · exact h.calmCount _ _ hs

theorem frameRead (h : EngineRules K M F) {s} {p : Port} (x : InHand) (r : ReadResult) (hp : s.stages.get p = .idle) (hs : Calm D M s) :
    Calm D M (s.frameRead p x r) := by
  unfold State.frameRead
  split
  · split
    · exact h.applyAction _ _ _ _ hs
    · exact h.calmCount _ _ hs
  · split
    · exact h.repeatFrame _ _ hs
    · unfold State.steer
      split
      · exact h.calmCount _ _ hs
      · split
        · exact h.noRoute _ _ hs
        · split
          · exact h.calmCount _ _ hs
          · exact h.calmRequestRead _ _ hp hs

theorem bypassFrame (h : EngineRules K M F) {s} (p : Port) (f : Frame) (hs : Calm D M s) : Calm D M (s.bypassFrame p f) := by
  unfold State.bypassFrame
  split
  · exact h.handOff _ _ _ hs
  · exact h.repeatFrame _ _ hs

theorem takeHead (h : EngineRules K M F) {s} {p : Port} (hp : s.stages.get p = .idle) (hs : Calm D M s) : Calm D M (s.takeHead p) := by
  unfold State.takeHead
  split
  · exact hs
  · rename_i f rest _
    have h1 : Calm D M { s with ingress := s.ingress.set p rest } := h.calmOutside (s := s) rfl hs
    dsimp only
    split
    · exact h1
    · unfold State.carryAcross
      split
      · exact h.calmOutside (SameInside.carryTraffic ..) h1
      · exact h1
    · exact h.bypassFrame _ _ h1
    · exact h.bypassFrame _ _ h1
    · exact h.judgeFrame _ hp h1

theorem calmReasons (h : EngineRules K M F) {s} (hs : Calm D M s) : Calm D M s.examineReasons :=
  hs.jobs (h.reasons hs.1) ((sameJobs_stable s).examineReasons (.refl s))

theorem takeHeads (h : EngineRules K M F) (n : Nat) {s} (hs : Calm D M s) : Calm D M (State.takeHeads n s) := by
  induction n generalizing s with
  | zero => exact hs
  | succ n ih =>
    unfold State.takeHeads
    split
    · rename_i p hp
      obtain ⟨hi, -⟩ := (s.takes_iff p).1 (List.find?_some hp)
      exact ih (h.takeHead ((stageIdle_stable p).examineReasons hi) (h.calmReasons hs))
    · exact hs

theorem settle (h : EngineRules K M F) {s} (hs : Calm D M s) : Calm D M s.settle := by
  have hr := h.calmReasons (h.takeHeads s.ingressTotal hs)
  exact hr.jobs (h.resumes hr.1) ((sameJobs_stable _).examineResume (.refl _))

theorem calmReceive (h : EngineRules K M F) {s} (k : ReqKind) (p : Port) (t : Byte) (ps : List Byte) (hs : Calm D M s) :
    Calm D M (s.receive k p t ps) := by
  unfold State.receive
  split
  · exact h.settle (h.dispatch _ hs)
  · exact hs

/-! ## Events -/

theorem calmFinish (h : EngineRules K M F) {s} {p : Program} (pass : Bool) (hp : s.program = some p) (hs : M s) :
    Calm D M (s.finishProgram p pass) :=
  h.settle (h.calmNext (h.afterProgram pass hs hp))

theorem calmCompletes (h : EngineRules K M F) {s} (r : ProgramRole) (pass : Bool) (hs : Calm D M s) : Calm D M (s.completes r pass) := by
  unfold State.completes
  split
  · rename_i p hp
    split
    · exact h.calmFinish pass hp hs.1
    · exact hs
  · exact hs

theorem endHeld (h : EngineRules K M F) {s} {e e' : EraseRec} (c : StopCause) (hs : M s) (he : s.op = .erase e) (hst : e.step ≠ .stamping)
    (hb : e'.bare = e.bare) (hst' : e'.step = e.step) : Calm D M (s.endHeld c e') :=
  h.settle (h.calmNext (h.eraseStopped_ends c hs (.inl he) hst hb hst'))

theorem sameJobs_eraseCompleted (s : State) (e' : EraseRec) :
    SameJobs s (s.eraseCompleted e') := by
  unfold State.eraseCompleted
  refine (sameJobs_stable s).claimProgram _ ((sameJobs_stable s).release _ ?_)
  refine SameJobs.trans ?_ (sameJobs_mapErase _ ?_)
  · exact .of_eq rfl rfl
  · exact fun _ => rfl

theorem eraseCompletes (h : EngineRules K M F) {s} {e : EraseRec} (us : Nat) (he : s.op = .erase e) (hs : Calm D M s) :
    Calm D M (s.eraseCompletes e us) := by
  have completed : e.step = .running ∨ e.step = .waiting ∨ e.step = .suspending → Calm D M (s.eraseCompleted (e.ran us)).settle := fun hst =>
    h.settle (hs.jobs (h.completed us hs.1 he hst) (sameJobs_eraseCompleted s _))
  unfold State.eraseCompletes
  split
  · rename_i hst
    exact completed (.inl hst)
  · rename_i hst
    exact completed (.inr (.inl hst))
  · rename_i hst _
    exact completed (.inr (.inr hst))
  · rename_i hst _
    exact h.endHeld _ hs.1 he (by rw [hst]; exact EraseStep.noConfusion) rfl rfl
  · exact hs

theorem suspendCompletes (h : EngineRules K M F) {s} {e : EraseRec} (us : Nat) (he : s.op = .erase e) (hs : Calm D M s) :
    Calm D M (s.suspendCompletes e us) := by
  unfold State.suspendCompletes
  split
  · rename_i hst _
    exact h.settle (h.calmNext (h.suspends us hs.1 he hst))
  · rename_i hst _
    exact h.endHeld _ hs.1 he (by rw [hst]; exact EraseStep.noConfusion) rfl rfl
  · exact hs

theorem calmTimeout (h : EngineRules K M F) {s} {e : EraseRec} (he : s.op = .erase e) (hs : M s) (hst : e.step = .running ∨ e.step = .waiting) :
    Calm D M { s with op := .erase { e with step := .stopping .timeout, runTimer := false } } := by
  have hm := h.stops .timeout hs (.inl he) hst
  rw [mapErase_of_erase he] at hm
  exact Calm.of_op hm rfl CurrentOp.noConfusion

theorem calmHold (h : EngineRules K M F) {s} {e : EraseRec} (he : s.op = .erase e) (hs : M s) :
    Calm D M { s with op := .erase (e.hold .timeout) } := by
  have hm := h.holds .timeout hs
  rw [mapErase_of_erase he] at hm
  exact Calm.of_op hm rfl CurrentOp.noConfusion

theorem calmInterval (h : EngineRules K M F) {s} {e : EraseRec} (he : s.op = .erase e) (hs : M s) : Calm D M (s.intervalEnds e) := by
  have hj : SameJobs ({ s with op := .erase { e with runTimer := false } } : State) (s.intervalEnds e) := by
    unfold State.intervalEnds
    dsimp only
    split
    · exact (sameJobs_stable _).lookAgain _ (.refl _)
    · exact .refl _
  exact Calm.through (h.interval hs he) hj rfl CurrentOp.noConfusion

theorem calmMount (_h : EngineRules K M F) {s : State} (hs : M s.beginMount) : Calm D M s.beginMount := by
  have hj : SameJobs ({ s with opState := .mounting, op := .mount Mount.start } : State) s.beginMount :=
    (sameJobs_stable _).claimRead (.header 0) (.refl _)
  exact Calm.through hs hj rfl CurrentOp.noConfusion

theorem calmReset (h : EngineRules K M F) {s : State} (hs : M (s.volatileReset .mounting)) : Calm D M s.internalReset :=
  h.calmMount (h.internalReset hs)

theorem calmSent (h : EngineRules K M F) {s} (o : Outgoing) (hs : Calm D M s) : Calm D M (s.sent o) := by
  unfold State.sent
  split
  · have hm := h.awaitedSent hs.1
    unfold State.awaitedSent at hm ⊢
    split
    · split
      · exact h.calmReset (h.reset .mounting hs.1)
      · rename_i r hr hw
        rw [hr] at hm
        dsimp only at hm
        rw [if_neg hw] at hm
        exact Calm.of_op hm rfl CurrentOp.noConfusion
    · exact hs
  · exact hs

/-- The engine reads for a mount in a scan phase. -/
theorem mountReading_free (h : EngineRules K M F) {s} {ph : MountPhase} {m : Mount} {t : ReadTarget} (hph : ph ≠ .repair) (hs : M s)
    (hr : s.mountReading ph = some (m, t)) : s.op = .mount m ∧ F true none (s.engineReadDone t) := by
  unfold State.mountReading at hr
  split at hr
  · rename_i m' hm
    dsimp only at hr
    rw [Option.ite_none_right_eq_some] at hr
    obtain ⟨⟨hp, -⟩, he⟩ := hr
    obtain ⟨rfl, rfl⟩ := Prod.mk.inj (Option.some.inj he)
    have hF := h.free (a := true) hs (fun e he => by rw [hm] at he; cases he) (fun _ => .inl (by rw [hm]; rfl)) fun p => by
      simp [State.issues, hm, hp, hph]
    rw [hm] at hF
    exact ⟨hm, h.freeReadDone _ hF⟩
  · cases hr

theorem sourceInFlight_free (h : EngineRules K M F) {s} {r : ReclaimRec} {x : Source} {rest : List Source} {es : List Entry} (hs : M s)
    (hr : s.sourceInFlight = some (r, x, rest, es)) : F true (some r.origin) (s.engineReadDone (.slot ⟨r.seg, x.slot⟩)) := by
  unfold State.sourceInFlight at hr
  split at hr
  · rename_i r' hop
    split at hr
    · rename_i hst
      split at hr
      · simp only [Option.some.injEq, Prod.mk.injEq] at hr
        obtain ⟨rfl, rfl, rfl, rfl⟩ := hr
        have hF := h.free (a := true) hs (fun e he => by rw [hop] at he; cases he) (fun _ => .inl (by rw [hop]; rfl)) fun p => by
          unfold State.issues
          rw [hop]
          cases r'
          simp_all
        rw [hop] at hF
        exact h.freeReadDone _ hF
      · cases hr
    · cases hr
  · cases hr

theorem rotationAt_free (h : EngineRules K M F) {s} {st : ConfigStep} {w : ConfigWrite} {g : CfgSeg} (hst : st = .erasing ∨ st = .stopping)
    (hs : M s) (hr : s.rotationAt st = some (w, g)) :
    s.op = .configWrite w ∧ w.target = some g ∧ F false (some w.origin) s := by
  unfold State.rotationAt at hr
  split at hr
  · rename_i w' hop
    split at hr
    · rename_i hw
      obtain ⟨g', hg, he⟩ := Option.map_eq_some_iff.1 hr
      obtain ⟨rfl, rfl⟩ := Prod.mk.inj he
      have hF := h.free (a := false) hs (fun e he => by rw [hop] at he; cases he) (fun e => by cases e) fun p => by
        simp only [State.issues, hop]
        unfold ConfigWrite.issues
        rw [hw]
        obtain rfl | rfl := hst <;> rfl
      rw [hop] at hF
      exact ⟨hop, hg, hF⟩
    · cases hr
  · cases hr

theorem calmConfigErased (h : EngineRules K M F) {s} {w : ConfigWrite} {g : CfgSeg} (ht : w.target = some g)
    (hF : F false (some w.origin) s) : Calm D M (s.configErased w g) := by
  have hj : SameJobs ({ s.bumpErases g.id with store := (s.bumpErases g.id).store.erased g.id
                                               op := .configWrite { w with step := .stamping } } : State) (s.configErased w g) := by
    unfold State.configErased
    dsimp only
    exact (sameJobs_stable _).claimProgram _ (.refl _)
  exact Calm.through (x := .configWrite { w with step := .stamping }) (h.configErased ht hF) hj rfl CurrentOp.noConfusion

/-! ## Commands -/

/-- A command other than those of the supply and RESET keeps what the rules of the engine keep. -/
theorem calm_exec_inside (h : EngineRules K M F) (alone : D → ∀ {s : State}, M s → s.op.alone = true → s.suspended = none) {c : Instr}
    {s t : State} (hc : isSupplyCommand c = false) (hs : Calm D M s) (he : exec c s = .next t) : Calm D M t := by
  have done : ∀ {x : State}, Calm D M x → (Host.Outcome.next x : Host.Outcome State Fault Refusal) = .next t → Calm D M t := by
    intro x hx e
    injection e with e
    exact e ▸ hx
  have notSuspended : D → ∀ {m : Mount}, s.op = .mount m → s.suspended = none := fun d m hm => alone d hs.1 (by rw [hm]; rfl)
  cases c with
  | powerOn => cases hc
  | lossOfPower => cases hc
  | resetAssertion => cases hc
  | resetRelease => cases hc
  | guardReleaseChange b =>
    have hg : SameInside s { s with guardRelease := b } := rfl
    exact done (h.calmOutside hg hs) he
  | frameArrival p f =>
    simp only [exec, execFrameArrival] at he
    split at he
    · exact done hs he
    · exact done (h.settle (h.calmOutside (SameInside.arriveHeld ..) hs)) he
    all_goals exact done (h.settle (h.calmOutside (SameInside.arrive ..) hs)) he
  | lookupReadCompletion p m =>
    simp only [exec, execLookupReadCompletion] at he
    split at he
    · rename_i x hx
      have hd : Calm D M ((s.setStage p .idle).readDone (bankOf x.addr.seg)) :=
        hs.jobs (h.lookupDone hs.1 hx) ((sameJobs_stable s).readDone _ ((sameJobs_stable s).setStage _ _ (.refl s)))
      exact done (h.settle (h.frameRead _ _ ((stageIdle_stable p).readDone _ (PerPort.get_set_same ..)) hd)) he
    · exact done hs he
  | readSlotCompletion b m =>
    simp only [exec, execReadSlotCompletion] at he
    split at he
    · rename_i hr
      exact done (h.settle (h.calmReplyRead _ _ _ _
        (hs.jobs (h.readSlotDone hs.1 hr) ((sameJobs_stable s).readDone _ (.refl s))))) he
    · exact done hs he
  | sourceReadCompletion m =>
    simp only [exec, execSourceReadCompletion] at he
    split at he
    · rename_i hr
      exact done (h.settle (h.calmNext (h.sourceRead _ _ _ _ (h.sourceInFlight_free hs.1 hr)))) he
    · exact done hs he
  | holdTimerExpiry p =>
    simp only [exec, execHoldTimerExpiry] at he
    split at he
    · rename_i x hx
      have hp : s.stages.get p = .waitBank x := by
        unfold State.heldInQueue at hx
        split at hx
        · rename_i y hy
          split at hx
          · exact hy.trans (congrArg Stage.waitBank (Option.some.inj hx))
          · cases hx
        · cases hx
      exact done (h.settle (h.calmCount _ _ (h.calmWithdraw hp hs))) he
    · exact done hs he
  | lineTransmissionCompletion l =>
    simp only [exec, execLineTransmissionCompletion] at he
    split at he
    · exact done (h.calmSent _ (h.calmOutside (SameInside.lineSent ..) hs)) he
    · exact done hs he
  | tapTransmissionCompletion =>
    simp only [exec, execTapTransmissionCompletion] at he
    split at he
    · exact done (h.calmSent _ (h.calmOutside (SameInside.tapSent ..) hs)) he
    · exact done hs he
  | programDeadlineExpiry =>
    simp only [exec, execProgramDeadlineExpiry] at he
    split at he
    · rename_i p hp
      exact done (h.calmFinish _ hp hs.1) he
    · exact done hs he
  | writeProgramCompletion b => exact done (h.calmCompletes _ _ hs) he
  | sealProgramCompletion b => exact done (h.calmCompletes _ _ hs) he
  | settleProgramCompletion b => exact done (h.calmCompletes _ _ hs) he
  | voidProgramCompletion b => exact done (h.calmCompletes _ _ hs) he
  | stampProgramCompletion b => exact done (h.calmCompletes _ _ hs) he
  | configStampCompletion b => exact done (h.calmCompletes _ _ hs) he
  | configWriteCompletion b => exact done (h.calmCompletes _ _ hs) he
  | configVoidCompletion b => exact done (h.calmCompletes _ _ hs) he
  | repairProgramCompletion b => exact done (h.calmCompletes _ _ hs) he
  | eraseCompletion us =>
    simp only [exec, execEraseCompletion] at he
    split at he
    · rename_i hop
      exact done (h.eraseCompletes us hop hs) he
    · exact done hs he
  | suspendCompletion us =>
    simp only [exec, execSuspendCompletion] at he
    split at he
    · rename_i hop
      exact done (h.suspendCompletes us hop hs) he
    · exact done hs he
  | stopCompletion us =>
    simp only [exec, execStopCompletion] at he
    split at he
    · rename_i hop
      split at he
      · rename_i hst
        refine done ?_ he
        exact h.endHeld _ hs.1 hop (by rw [hst]; exact EraseStep.noConfusion) rfl rfl
      · exact done hs he
    · exact done hs he
  | eraseTimeoutExpiry =>
    simp only [exec, execEraseTimeoutExpiry] at he
    split at he
    · rename_i hop
      split at he
      · rename_i hst
        exact done (h.calmTimeout hop hs.1 (.inl hst)) he
      · rename_i hst
        exact done (h.calmTimeout hop hs.1 (.inr hst)) he
      · exact done (h.calmHold hop hs.1) he
      · exact done hs he
    · exact done hs he
  | runIntervalTimerExpiry =>
    simp only [exec, execRunIntervalTimerExpiry] at he
    split at he
    · rename_i hop
      refine done ?_ he
      split
      · exact h.calmInterval hop hs.1
      · exact hs
    · exact done hs he
  | idleTimerExpiry =>
    simp only [exec, execIdleTimerExpiry] at he
    split at he
    · have hg : SameInside s { s with staging := Staging.reset } := rfl
      exact done (h.calmOutside (SameInside.addFault ..) (h.calmOutside hg hs)) he
    · exact done hs he
  | configEraseCompletion =>
    simp only [exec, execConfigEraseCompletion] at he
    split at he
    · rename_i w g hr
      obtain ⟨-, ht, hF⟩ := h.rotationAt_free (.inl rfl) hs.1 hr
      exact done (h.calmConfigErased ht hF) he
    · exact done hs he
  | configEraseTimeout =>
    simp only [exec, execConfigEraseTimeout] at he
    split at he
    · rename_i w g hr
      obtain ⟨-, -, hF⟩ := h.rotationAt_free (.inl rfl) hs.1 hr
      exact done (Calm.of_op (h.set (x := .configWrite { w with step := .stopping }) hF rfl) rfl CurrentOp.noConfusion) he
    · exact done hs he
  | configStopCompletion =>
    simp only [exec, execConfigStopCompletion] at he
    split at he
    · rename_i w g hr
      obtain ⟨-, -, hF⟩ := h.rotationAt_free (.inr rfl) hs.1 hr
      exact done (h.settle (h.calmNext (h.configStopped w g hF))) he
    · exact done hs he
  | headerReadCompletion m =>
    simp only [exec, execHeaderReadCompletion] at he
    split at he
    · rename_i hr
      obtain ⟨hm, hF⟩ := h.mountReading_free MountPhase.noConfusion hs.1 hr
      exact done (h.settle ⟨h.headerScanned _ _ hF, fun d _ =>
        notSuspended_headerScanned _ _ (notSuspended_stable.engineReadDone _ (notSuspended d hm))⟩) he
    · exact done hs he
  | slotScanReadCompletion m =>
    simp only [exec, execSlotScanReadCompletion] at he
    split at he
    · rename_i hr
      obtain ⟨hm, hF⟩ := h.mountReading_free MountPhase.noConfusion hs.1 hr
      exact done (h.settle ⟨h.slotScanned _ hF, fun d _ =>
        notSuspended_slotScanned _ (notSuspended_stable.engineReadDone _ (notSuspended d hm))⟩) he
    · exact done hs he
  | restartDrainExpiry =>
    simp only [exec, execRestartDrainExpiry] at he
    split at he
    · exact done (h.calmReset (h.reset .mounting hs.1)) he
    · exact done hs he
  | status p t ps => exact done (h.calmReceive _ _ _ _ hs) he
  | describe p t ps => exact done (h.calmReceive _ _ _ _ hs) he
  | readSlot p t ps => exact done (h.calmReceive _ _ _ _ hs) he
  | readIndex p t ps => exact done (h.calmReceive _ _ _ _ hs) he
  | readCounters p t ps => exact done (h.calmReceive _ _ _ _ hs) he
  | readCountersWithClear p t b => exact done (h.calmReceive _ _ _ _ hs) he
  | readFaults p t ps => exact done (h.calmReceive _ _ _ _ hs) he
  | readConfig p t ps => exact done (h.calmReceive _ _ _ _ hs) he
  | clearFaults p t ps => exact done (h.calmReceive _ _ _ _ hs) he
  | stage p t ps => exact done (h.calmReceive _ _ _ _ hs) he
  | unstage p t ps => exact done (h.calmReceive _ _ _ _ hs) he
  | abandon p t ps => exact done (h.calmReceive _ _ _ _ hs) he
  | setModeRun p t => exact done (h.calmReceive _ _ _ _ hs) he
  | setModeBypass p t => exact done (h.calmReceive _ _ _ _ hs) he
  | commit p t ps => exact done (h.calmReceive _ _ _ _ hs) he
  | erase p t ps => exact done (h.calmReceive _ _ _ _ hs) he
  | reclaim p t ps => exact done (h.calmReceive _ _ _ _ hs) he
  | setConfig p t ps => exact done (h.calmReceive _ _ _ _ hs) he
  | restart p t ps => exact done (h.calmReceive _ _ _ _ hs) he

/-- A command keeps what the rules of the engine keep; from HELD the release of RESET finds the engine free. -/
theorem calm_exec (h : EngineRules K M F) (alone : D → ∀ {s : State}, M s → s.op.alone = true → s.suspended = none) {c : Instr}
    {s t : State} (held : s.opState = .held → F true none { s with resetAsserted := false }) (hs : Calm D M s)
    (he : exec c s = .next t) : Calm D M t := by
  by_cases hc : isSupplyCommand c = false
  · exact h.calm_exec_inside alone hc hs he
  · have done : ∀ {x : State}, Calm D M x → (Host.Outcome.next x : Host.Outcome State Fault Refusal) = .next t → Calm D M t := by
      intro x hx e
      injection e with e
      exact e ▸ hx
    have off : ∀ (x : OpState) {u : State}, M u → Calm D M (u.volatileReset x) := fun x u hu => ⟨h.reset x hu, fun _ _ => rfl⟩
    have level : ∀ b : Bool, Calm D M { s with resetAsserted := b } := fun b => hs.jobs (h.levels s.opState b hs.1) (.of_eq rfl rfl)
    have mounts : ∀ {u : State}, F true none u → Calm D M u.beginMount := fun hu =>
      h.calmMount (h.beginMount hu)
    cases c with
    | powerOn =>
      refine done ?_ he
      unfold State.powerUp
      split
      · exact off .held hs.1
      · exact h.calmReset (h.reset .mounting hs.1)
    | lossOfPower => exact done (off .noPower hs.1) he
    | resetAssertion =>
      refine done ?_ he
      split
      · exact off .held (level true).1
      · exact level true
    | resetRelease =>
      refine done ?_ he
      split
      · rename_i ho
        have hst : SameInside ({ s with resetAsserted := false } : State) ({ s with resetAsserted := false } : State).countStanding := rfl
        exact h.settle (mounts (h.freeOutside (held ho) hst))
      · exact level false
    | _ => exact absurd rfl hc

end EngineRules

end Sys2Proof.Machine
end

section
/-! PROOF. Statements about the engine's records, the Request Queue and the segment values alone: fewer rules, since the operations
of the banks leave all of these as they are. -/

namespace Sys2Proof.Machine

open Sys2Proof

/-! ## The same records -/

/-- Two states with the same queued requests, segment values and records of the engine, but for how far the erase in progress has
come. -/
structure SameRecords (s t : State) : Prop where
  jobs : SameJobs s t
  queue : t.queue = s.queue
  segs : t.segs = s.segs
  canonical : s.canonical = true → t.canonical = true

namespace SameRecords

variable {s t u : State}

theorem refl (s : State) : SameRecords s s := ⟨.refl s, rfl, rfl, id⟩

theorem trans (h : SameRecords s t) (h' : SameRecords t u) : SameRecords s u :=
  ⟨h.jobs.trans h'.jobs, h'.queue.trans h.queue, h'.segs.trans h.segs, fun hc => h'.canonical (h.canonical hc)⟩

theorem of_outside (h : SameOutside s t) (hj : SameJobs s t) : SameRecords s t := by
  refine ⟨hj, h.queue, h.segs, fun hc => ?_⟩
  unfold State.canonical at hc ⊢
  rw [h.store, h.index, h.segs]
  exact hc

theorem of_inside (h : SameInside s t) : SameRecords s t := by
  refine ⟨h.jobs, h.queue, h.segs, fun hc => ?_⟩
  unfold State.canonical at hc ⊢
  rw [h.store, h.index, h.segs]
  exact hc

theorem discardErase (h : SameRecords s t) : SameRecords s.discardErase t.discardErase := by
  have hop := h.jobs.op
  unfold State.discardErase State.endOp
  split
  · rename_i e he
    rw [he] at hop
    obtain ⟨e', he', -⟩ := CurrentOp.bare_erase hop
    rw [he']
    exact ⟨⟨rfl, h.jobs.suspended⟩, h.queue, h.segs, h.canonical⟩
  · rename_i hn
    have hnt : ∀ e, t.op ≠ .erase e := fun e he => by
      rw [he] at hop
      obtain ⟨e', he', -⟩ := CurrentOp.bare_erase hop.symm
      exact hn e' he'
    split
    · rename_i e he
      exact absurd he (hnt e)
    · exact ⟨⟨hop, rfl⟩, h.queue, h.segs, h.canonical⟩

end SameRecords

/-- The operations of the banks leave the records. -/
theorem sameRecords_banks {s t : State} (h : ∀ {P : State → Prop}, StableJobs P → P s → P t) : SameRecords s t := by
  have hs : StableJobs (SameRecords s) :=
    { inner := fun _ _ _ _ _ h => ⟨⟨h.jobs.op, h.jobs.suspended⟩, h.queue, h.segs, h.canonical⟩
      progress := fun x f hf h => h.trans (.of_outside (sameOutside_mapErase x f) (sameJobs_mapErase x hf)) }
  exact h hs (.refl s)

/-! ## The rules -/

/-- What `EngineRules` asks, of a predicate on the records of the engine, the Request Queue and the segment values. -/
structure RecordRules (M : State → Prop) (F : Bool → Option Origin → State → Prop) : Prop where
  freeSame : ∀ {a o s t}, F a o s → SameRecords s t → F a o t
  freeSeg : ∀ {a o s} (g : Nat) (v : SegVol), (v.state = some .opened → (s.seg g).state = some .opened) →
    (v.state = some .erasing → (s.seg g).state = some .erasing) → F a o s → F a o (s.setSeg g v)
  freeAllocate : ∀ {a o s} {g : Nat}, g < 32 → F a o s → F a o (s.allocate g)
  freeOpenCfg : ∀ {a o s} (g : CfgSeg), F a o s → F a o (s.openConfigSegment g)
  freeSetAll : ∀ {a o s} (m : Mount), F a o s → F a o (s.setAllSegments m)
  freeDrop : ∀ {a o s} {q : List QueuedRequest}, q.Sublist s.queue → F a o s → F a o { s with queue := q }
  freeTake : ∀ {a s} {q : QueuedRequest} {qs : List QueuedRequest}, s.queue = q :: qs → F a none s →
    F a (some q.origin) { s with queue := qs }
  freeOp : ∀ {a o s} (x : CurrentOp), F a o s → F a o { s with op := x }
  freeReset : ∀ {a o s} (x : OpState), F a o s → M (s.volatileReset x)
  set : ∀ {a o s} {x : CurrentOp}, F a o s → x.fits a o → M { s with op := x }
  erase : ∀ {s} (e : EraseRec), F true (some e.origin) s → M { s.setSegState e.seg .erasing with op := .erase e }
  free : ∀ {s} {a : Bool}, M s → s.noErase → (a = true → s.op.alone = true ∨ s.suspended = none) → F a s.op.origin? s
  stamped : ∀ {s} {e : EraseRec} (x : SegState), M s → s.op = .erase e → x ≠ .opened → x ≠ .erasing →
    F true (some e.origin) (s.setSegFill e.seg x 0)
  same : ∀ {s t}, M s → SameRecords s t → M t
  seg : ∀ {s} (g : Nat) (v : SegVol), v.state = (s.seg g).state → M s → M (s.setSeg g v)
  enqueue : ∀ {s} {o : Origin} (k : QueuedKind), M s → s.inProgress o = false → M { s with queue := s.queue ++ [⟨o, k⟩] }
  drop : ∀ {s} {q : List QueuedRequest}, q.Sublist s.queue → M s → M { s with queue := q }
  reset : ∀ {s} (x : OpState), M s → M (s.volatileReset x)
  resume : ∀ {s} {e : EraseRec}, M s → s.op = .idle → s.suspended = some e → M { s with op := .erase e, suspended := none }
  suspend : ∀ {s} {e : EraseRec}, M s → s.op = .erase e → F false none { s with suspended := some e, op := .idle }
  ends : ∀ {s} {e : EraseRec}, M s → s.erases e → M (s.setSegFill e.seg .torn 0).discardErase

namespace RecordRules

variable {M : State → Prop} {F : Bool → Option Origin → State → Prop}

theorem program (h : RecordRules M F) {a o s} {x : CurrentOp} {p : Program} (hF : F a o s) (hx : x.fits a o) :
    M (({ s with op := x } : State).claimProgram p) :=
  h.same (h.set hF hx) (sameRecords_banks fun hP => hP.claimProgram p)

theorem ended (h : RecordRules M F) {s} (p : Program) (pass : Bool) (hM : M s) : M (s.endProgram p pass) := by
  have hc : M (s.programCounted p pass) := by
    have inUse : ∀ (g n : Nat), M (s.setInUse g n) := fun g n => h.seg _ _ rfl hM
    unfold State.programCounted
    split
    · split
      · exact hM
      · unfold State.countInUse
        dsimp only
        split
        · split
          · exact inUse _ _
          · exact hM
        · exact hM
        all_goals
          split
          · exact inUse _ _
          · exact hM
    · exact hM
  rw [endProgram_eq]
  refine h.same (s := s.programEnded p pass) (h.same hc ?_) (sameRecords_banks fun hP => hP.releaseProgram p.job)
  refine ⟨.of_eq rfl rfl, rfl, rfl, fun hs => ?_⟩
  have hw := State.store_wf hs
  rw [programCounted_segs] at hw
  exact canonical_setStore (Store.programmed_wf _ _ hw) hs

theorem freeEnded (h : RecordRules M F) {s} (p : Program) (pass : Bool) (hM : M s) (hn : s.noErase) :
    F s.op.alone s.op.origin? (s.endProgram p pass) := by
  have hj := sameJobs_endProgram s p pass
  have hF := h.free (a := s.op.alone) (h.ended p pass hM) (hj.noErase hn) (by rw [hj.op_eq hn]; exact .inl)
  rw [hj.op_eq hn] at hF
  exact hF

theorem completed (h : RecordRules M F) {s} (e : EraseRec) (hM : M s) : M (s.eraseCompleted e) := by
  have hb : M (s.bumpErases e.seg) := h.seg _ _ rfl hM
  unfold State.eraseCompleted
  refine h.same hb (SameRecords.trans ?_ (sameRecords_banks fun hP => hP.claimProgram _))
  refine SameRecords.trans ?_ (sameRecords_banks fun hP => hP.release _)
  refine SameRecords.trans (t := { s.bumpErases e.seg with store := (s.bumpErases e.seg).store.erased e.seg }) ?_
    (.of_outside (sameOutside_mapErase _ _) (sameJobs_mapErase _ fun _ => rfl))
  exact ⟨.of_eq rfl rfl, rfl, rfl, fun hc => canonical_setStore (Store.erased_wf _ (State.store_wf hc)) hc⟩

theorem suspends (h : RecordRules M F) {s} {e e' : EraseRec} (hM : M s) (he : s.op = .erase e) (hb : e'.bare = e.bare) :
    M (s.eraseSuspends e') := by
  unfold State.eraseSuspends
  dsimp only
  refine h.same hM (SameRecords.trans ?_ (sameRecords_banks fun hP => (hP.release _ <| hP.setBank _ _ ·)))
  refine .of_outside (sameOutside_mapErase _ _) ?_
  rw [mapErase_of_erase he]
  refine ⟨?_, rfl⟩
  rw [he]
  exact congrArg CurrentOp.erase hb

theorem interval (h : RecordRules M F) {s} {e : EraseRec} (hM : M s) (he : s.op = .erase e) : M (s.intervalEnds e) := by
  have hs : SameRecords s { s with op := .erase { e with runTimer := false } } := by
    refine ⟨⟨?_, rfl⟩, rfl, rfl, id⟩
    rw [he]
    rfl
  unfold State.intervalEnds
  dsimp only
  split
  · exact h.same hM (hs.trans (sameRecords_banks fun hP => hP.lookAgain _))
  · exact h.same hM hs

theorem tornEnds (h : RecordRules M F) {s t} {e e' : EraseRec} (hM : M s) (he : s.erases e) (hb : e'.bare = e.bare)
    (ht : SameInside ((s.tearSegment e').freeEraseBank e') t) : M t.discardErase := by
  have hg : e'.seg = e.seg := (congrArg EraseRec.seg hb :)
  have h1 : SameRecords (s.setSegFill e.seg .torn 0) (s.tearSegment e') := by
    unfold State.tearSegment
    rw [hg]
    refine ⟨.of_eq rfl rfl, rfl, rfl, fun hc => ?_⟩
    have hw := State.store_wf hc
    exact canonical_setStore (s := s.setSegFill e.seg .torn 0) (cutErase_wf e' hw) hc
  have h2 := (h1.trans (sameRecords_banks fun hP => hP.freeEraseBank e')).trans (.of_inside ht)
  exact h.same (h.ends hM he) h2.discardErase

theorem abandons (h : RecordRules M F) {s} {r : ReclaimRec} (hM : M s) (hr : s.op = .reclaim r) :
    M { s with op := .reclaim { r with abandoned := true } } := by
  have hF := h.free (a := true) hM (fun e he => by rw [hr] at he; cases he) fun _ => .inl (by rw [hr]; rfl)
  rw [hr] at hF
  exact h.set hF ⟨rfl, rfl⟩

/-- The rules for the records are rules for the engine. -/
theorem engine (h : RecordRules M F) : EngineRules False M F where
  freeOutside hF ht := h.freeSame hF (.of_inside ht)
  freeSeg g v hv hv' hF := h.freeSeg g v hv hv' hF
  freeAllocate hg hF := h.freeAllocate hg hF
  freeOpenCfg g hF := h.freeOpenCfg g hF
  freeSetAll m hF := h.freeSetAll m hF
  freeStore hw hF := h.freeSame hF ⟨.of_eq rfl rfl, rfl, rfl, fun hc => canonical_setStore (hw (State.store_wf hc)) hc⟩
  freeIndex hw hF := h.freeSame hF ⟨.of_eq rfl rfl, rfl, rfl, fun hc => by
    simp only [State.canonical, Bool.and_eq_true] at hc ⊢
    obtain ⟨⟨hs, hx⟩, hg⟩ := hc
    exact ⟨⟨hs, hw hx⟩, hg⟩⟩
  freeRest _ _ _ _ hF := h.freeSame hF ⟨.of_eq rfl rfl, rfl, rfl, id⟩
  freeReadDone t hF := h.freeSame hF (sameRecords_banks fun hP => hP.engineReadDone t)
  freeDrop hq hF := h.freeDrop hq hF
  freeTake hq hF := h.freeTake hq hF
  freeOp x hF := h.freeOp x hF
  freeReset x hF := h.freeReset x hF
  set hF hx := h.set hF hx
  program hF hx _ := h.program hF hx
  read t hF hx := h.same (h.set hF hx) (sameRecords_banks fun hP => hP.claimRead t)
  erase g t hF := by
    unfold State.beginErase
    exact h.same (h.erase _ hF) (sameRecords_banks fun hP => hP.makeClaim _ _)
  issued hk := hk.elim
  free hM hn ha _ := h.free hM hn ha
  ended pass hM _ := h.ended _ pass hM
  endedFree pass hM _ hn := h.freeEnded _ pass hM hn
  stampEnded pass x hM _ _ he hx hx' := h.stamped x (h.ended _ pass hM) he hx hx'
  outside hM ht := h.same hM (.of_inside ht)
  enqueue k hM hp := h.enqueue k hM hp
  drop hq hM := h.drop hq hM
  levels _ _ hM := h.same hM ⟨.of_eq rfl rfl, rfl, rfl, id⟩
  reset x hM := h.reset x hM
  resume hM hi hs := h.resume hM hi hs
  suspend hM he _ := h.suspend hM he
  completed us hM _ _ := h.completed _ hM
  suspends us hM he _ := h.suspends hM he rfl
  ends hM he _ hb _ ht := h.tornEnds hM he hb ht
  stops _ hM _ _ := h.same hM (.of_outside (sameOutside_mapErase _ _) (sameJobs_mapErase _ fun _ => rfl))
  holds c hM := h.same hM (.of_outside (sameOutside_mapErase _ _) (sameJobs_mapErase _ fun e => by
    unfold EraseRec.hold
    split <;> rfl))
  interval hM he := h.interval hM he
  reasons hM := h.same hM (sameRecords_banks fun hP => hP.examineReasons)
  resumes hM := h.same hM (sameRecords_banks fun hP => hP.examineResume)
  abandons hM hr := h.abandons hM hr
  requests x a hM _ := h.same hM (sameRecords_banks fun hP => hP.requestRead _ x a)
  lookupDone hM _ := h.same hM (sameRecords_banks fun hP => (hP.readDone _ <| hP.setStage _ _ ·))
  readSlotDone hM _ := h.same hM (sameRecords_banks fun hP => hP.readDone _)
  readSlotStarts _ _ hM _ := h.same hM (sameRecords_banks fun hP => hP.setBank _ _)
  withdraws hM _ := h.same hM (sameRecords_banks fun hP => (hP.withdrawRead _ _ <| hP.setStage _ _ ·))
  leaves hM _ := h.same hM (sameRecords_banks fun hP => hP.setStage _ _)

end RecordRules

end Sys2Proof.Machine
end

section
/-! PROOF. The requests stay distinct (R105, R150). -/

namespace Sys2Proof.Machine

open Sys2Proof

/-- The port and tag of every queued request, of a request in hand and of the suspended-erase record. -/
def State.originsWith (s : State) (o : Option Origin) : List Origin :=
  s.queue.map QueuedRequest.origin ++ o.toList ++ (s.suspended.map EraseRec.origin).toList

theorem originsDistinct_iff (s : State) : s.originsDistinct = true ↔ (s.originsWith s.op.origin?).Nodup :=
  decide_eq_true_iff

theorem CurrentOp.origin_bare (x : CurrentOp) : x.bare.origin? = x.origin? := by
  cases x <;> rfl

theorem SameRecords.originsWith {s t : State} (h : SameRecords s t) (o : Option Origin) : t.originsWith o = s.originsWith o := by
  have hs : t.suspended.map EraseRec.origin = s.suspended.map EraseRec.origin := by
    have hb := congrArg (Option.map EraseRec.origin) h.jobs.suspended
    rw [Option.map_map, Option.map_map] at hb
    exact hb
  unfold State.originsWith
  rw [h.queue, hs]

theorem SameRecords.origin {s t : State} (h : SameRecords s t) : t.op.origin? = s.op.origin? := by
  rw [← t.op.origin_bare, h.jobs.op, CurrentOp.origin_bare]

/-- A request that is not in hand any more leaves the others distinct. -/
theorem originsWith_none {s : State} {o : Option Origin} (h : (s.originsWith o).Nodup) : (s.originsWith none).Nodup := by
  refine h.sublist ?_
  unfold State.originsWith
  exact ((List.Sublist.refl _).append (List.nil_sublist _)).append (List.Sublist.refl _)

theorem originsWith_drop {s : State} {q : List QueuedRequest} (hq : q.Sublist s.queue) {o : Option Origin} (h : (s.originsWith o).Nodup) :
    (({ s with queue := q } : State).originsWith o).Nodup := by
  refine h.sublist ?_
  unfold State.originsWith
  exact ((hq.map _).append (List.Sublist.refl _)).append (List.Sublist.refl _)

theorem originsWith_fits {s : State} {a : Bool} {o : Option Origin} {x : CurrentOp} (hx : x.fits a o) (h : (s.originsWith o).Nodup) :
    (s.originsWith x.origin?).Nodup := by
  have hand : o = x.origin? → (s.originsWith x.origin?).Nodup := fun e => e ▸ h
  cases x with
  | idle => exact originsWith_none h
  | mount m => exact originsWith_none h
  | erase e => exact hx.elim
  | commit b => exact hand hx
  | configWrite w => exact hand hx
  | reclaim r => exact hand hx.2
  | restart r => exact hand hx.2

/-- The erase record gone, wherever it was held. -/
theorem originsWith_discardErase {s : State} (h : (s.originsWith s.op.origin?).Nodup) :
    (s.discardErase.originsWith s.discardErase.op.origin?).Nodup := by
  unfold State.discardErase
  split
  · exact originsWith_none h
  · refine h.sublist ?_
    unfold State.originsWith
    exact (List.Sublist.refl _).append (List.nil_sublist _)

theorem originsRules : RecordRules (fun s => (s.originsWith s.op.origin?).Nodup) (fun _ o s => (s.originsWith o).Nodup) where
  freeSame hF hs := (hs.originsWith _).symm ▸ hF
  freeSeg _ _ _ _ hF := hF
  freeAllocate {_ o _} g _ hF := allocate_keeps (P := fun s => (s.originsWith o).Nodup) (fun _ _ _ h => h) g hF
  freeOpenCfg {_ o _} g hF := openConfigSegment_keeps (P := fun s => (s.originsWith o).Nodup) (fun _ _ _ h => h) g hF
  freeSetAll {_ o _} m hF := setAllSegments_keeps (P := fun s => (s.originsWith o).Nodup) (fun _ _ _ h => h) m hF
  freeDrop hq hF := originsWith_drop hq hF
  freeTake {_ s q qs} hq hF := by
    unfold State.originsWith at hF ⊢
    rw [hq] at hF
    rw [List.map_cons, Option.toList_none, List.append_nil] at hF
    exact ((List.perm_append_comm (l₁ := [q.origin]) (l₂ := qs.map QueuedRequest.origin)).append_right _).nodup_iff.1 hF
  freeOp _ hF := hF
  freeReset _ _ := List.nodup_nil
  set hF hx := originsWith_fits hx hF
  erase _ hF := hF
  free hM _ _ := hM
  stamped {s e} x hM he _ _ := by
    rw [he] at hM
    exact hM
  same hM hs := by
    rw [hs.originsWith, hs.origin]
    exact hM
  seg _ _ _ hM := hM
  enqueue {s o} k hM hp := by
    have hn : o ∉ s.originsWith s.op.origin? := by
      unfold State.inProgress at hp
      simp only [Bool.or_eq_false_iff, List.any_eq_false, decide_eq_true_eq, decide_eq_false_iff_not] at hp
      obtain ⟨⟨⟨⟨⟨⟨hq, ho⟩, hs⟩, -⟩, -⟩, -⟩, -⟩ := hp
      unfold State.originsWith
      simp only [List.mem_append, List.mem_map, Option.mem_toList]
      rintro ((⟨q, hm, he⟩ | h) | h)
      · exact hq q hm he
      · exact ho h
      · exact hs h
    have hc := List.nodup_cons.2 ⟨hn, hM⟩
    refine (List.Perm.nodup_iff ?_).1 hc
    unfold State.originsWith
    rw [List.map_append]
    exact ((List.perm_append_comm (l₁ := [o]) (l₂ := s.queue.map QueuedRequest.origin)).append_right _).append_right _
  drop hq hM := originsWith_drop hq hM
  reset _ _ := List.nodup_nil
  resume {s e} hM hi hs := by
    unfold State.originsWith at hM ⊢
    rw [hi, hs] at hM
    simpa [CurrentOp.origin?] using hM
  suspend {s e} hM he := by
    unfold State.originsWith at hM ⊢
    rw [he] at hM
    refine hM.sublist ?_
    simp [CurrentOp.origin?]
  ends hM _ := originsWith_discardErase hM

/-- Settles O7: no operation gives a port and tag to a second request, since only a request that is not in progress is queued. -/
theorem stepKeepsRequestsDistinct : Obligations.StepKeepsRequestsDistinct := by
  intro s t h hs
  obtain ⟨-, rfl⟩ | ⟨c, rest, -, he⟩ := step_cases hs
  · exact h
  · rw [originsDistinct_iff] at h ⊢
    have held : (({ s with pending := rest, resetAsserted := false } : State).originsWith none).Nodup := originsWith_none h
    have hM : Calm False (fun s : State => (s.originsWith s.op.origin?).Nodup) { s with pending := rest } := ⟨h, False.elim⟩
    exact (originsRules.engine.calm_exec (s := { s with pending := rest }) False.elim (fun _ => held) hM he).1

end Sys2Proof.Machine
end

section
/-! PROOF. One OPEN configuration segment, one ERASING route segment (R14, R108, R163), and HELD with RESET. -/

namespace Sys2Proof.Machine

open Sys2Proof

/-! ## One OPEN configuration segment -/

/-- An allocation opens no segment but the one it allocates. -/
theorem opened_allocate_other {s : State} (hc : s.canonical = true) {g x : Nat} (hne : x ≠ g)
    (ho : ((s.allocate g).seg x).state = some .opened) : (s.seg x).state = some .opened := by
  unfold State.allocate State.setSegFill State.setSegState at ho
  split at ho
  · rename_i o hopen
    have hc' := canonical_setSeg o { s.seg o with state := some .filled } hc
    rw [seg_setSeg (segs_of_canonical hc'), if_neg hne] at ho
    exact opened_setSeg hc (fun e => by cases e) x ho
  · rw [seg_setSeg (segs_of_canonical hc), if_neg hne] at ho
    exact ho

/-- The segment values are in canonical form and at most one configuration segment is OPEN. -/
def State.OneOpenCfg (s : State) : Prop :=
  s.canonical = true ∧ s.atMostOneOpenCfg = true

namespace State.OneOpenCfg

variable {s t : State}

theorem of_segs (h : s.OneOpenCfg) (hc : t.canonical = true) (ht : t.segs = s.segs) : t.OneOpenCfg :=
  ⟨hc, atMostOneOpenCfg_of_opened h.2 fun g hg => by rw [← seg_of_segs ht]; exact hg⟩

theorem setSeg (h : s.OneOpenCfg) (g : Nat) {v : SegVol} (hv : v.state = some .opened → (s.seg g).state = some .opened) :
    (s.setSeg g v).OneOpenCfg :=
  ⟨canonical_setSeg g v h.1, atMostOneOpenCfg_of_opened h.2 fun f => opened_setSeg h.1 hv f.id⟩

theorem setState (h : s.OneOpenCfg) (g : Nat) {v : SegVol} {x : SegState} (hv : v.state = some x) (hx : x ≠ .opened) : (s.setSeg g v).OneOpenCfg :=
  h.setSeg g fun e => absurd (Option.some.inj (hv.symm.trans e)) hx

theorem reset (h : s.OneOpenCfg) (x : OpState) : (s.volatileReset x).OneOpenCfg :=
  ⟨canonical_volatileReset x h.1, atMostOneOpenCfg_of_unique fun f g hf _ => by rw [seg_nil rfl] at hf; cases hf⟩

theorem discardErase (h : s.OneOpenCfg) : s.discardErase.OneOpenCfg := by
  unfold State.discardErase
  split
  · exact h
  · exact h

end State.OneOpenCfg

theorem oneOpenCfg_rules : RecordRules State.OneOpenCfg (fun _ _ s => s.OneOpenCfg) where
  freeSame hF hs := hF.of_segs (hs.canonical hF.1) hs.segs
  freeSeg g _ hv _ hF := hF.setSeg g hv
  freeAllocate {_ _ s} g hg hF := ⟨canonical_allocate g hF.1, atMostOneOpenCfg_of_opened hF.2 fun f ho =>
    opened_allocate_other hF.1 (fun e => by have := f.id_eq; omega) ho⟩
  freeOpenCfg {_ _ s} g hF := ⟨canonical_stable.openConfigSegment s g hF.1, atMostOneOpenCfg_of_unique fun f f' hf hf' =>
    (opened_openConfigSegment hF.1 hF.2 g f hf).trans (opened_openConfigSegment hF.1 hF.2 g f' hf').symm⟩
  freeSetAll {_ _ s} m hF := ⟨canonical_stable.setAllSegments s m hF.1, atMostOneOpenCfg_of_unique fun f f' hf hf' => by
    have holds : ∀ g : CfgSeg, ((s.setAllSegments m).seg g.id).state = some .opened →
        m.inForce.source.map (fun src => src.addr.seg) = some g.id := fun g hg => by
      have hid := g.id_eq
      have ho := opened_setAllSegments hF.1 m (by omega) hg
      rw [if_neg (by omega)] at ho
      exact inForce_of_opened ho
    exact CfgSeg.id_inj (Option.some.inj ((holds f hf).symm.trans (holds f' hf')))⟩
  freeDrop _ hF := hF
  freeTake _ hF := hF
  freeOp _ hF := hF
  freeReset x hF := hF.reset x
  set hF _ := hF
  erase e hF := hF.setState e.seg rfl (by decide)
  free hM _ _ := hM
  stamped {_ e} x hM _ hx _ := hM.setState e.seg rfl hx
  same hM hs := hM.of_segs (hs.canonical hM.1) hs.segs
  seg g _ hv hM := hM.setSeg g fun e => hv ▸ e
  enqueue _ hM _ := hM
  drop _ hM := hM
  reset x hM := hM.reset x
  resume hM _ _ := hM
  suspend hM _ := hM
  ends {_ e} hM _ := (hM.setState e.seg rfl (by decide)).discardErase

/-! ## One ERASING route segment -/

/-- Every ERASING route segment is one of an erase record. -/
def State.ErasingOnly (s : State) (e : Option EraseRec) : Prop :=
  ∀ x : Nat, x < 32 → (s.seg x).state = some .erasing → e.map EraseRec.seg = some x

namespace State.ErasingOnly

variable {s t : State} {e : Option EraseRec}

theorem of_erasing (h : s.ErasingOnly e) (ht : ∀ x, x < 32 → (t.seg x).state = some .erasing → (s.seg x).state = some .erasing) :
    t.ErasingOnly e :=
  fun x hx he => h x hx (ht x hx he)

theorem of_segs (h : s.ErasingOnly e) (ht : t.segs = s.segs) : t.ErasingOnly e :=
  h.of_erasing fun x _ he => by rw [← seg_of_segs ht]; exact he

theorem of_bare (h : s.ErasingOnly e) {e' : Option EraseRec} (he : e'.map EraseRec.bare = e.map EraseRec.bare) : s.ErasingOnly e' := by
  have hs := congrArg (Option.map EraseRec.seg) he
  rw [Option.map_map, Option.map_map] at hs
  exact fun x hx hxe => hs.trans (h x hx hxe)

theorem setSeg (h : s.ErasingOnly e) (hc : s.canonical = true) (g : Nat) {v : SegVol}
    (hv : v.state = some .erasing → (s.seg g).state = some .erasing) : (s.setSeg g v).ErasingOnly e :=
  h.of_erasing fun x _ he => by
    rw [seg_setSeg (segs_of_canonical hc)] at he
    split at he
    · rename_i hx
      rw [hx]
      exact hv he
    · exact he

theorem setState (h : s.ErasingOnly e) (hc : s.canonical = true) (g : Nat) {v : SegVol} {x : SegState} (hv : v.state = some x)
    (hx : x ≠ .erasing) : (s.setSeg g v).ErasingOnly e :=
  h.setSeg hc g fun he => absurd (Option.some.inj (hv.symm.trans he)) hx

/-- The segment of the one record leaves ERASING: none is ERASING. -/
theorem ended {r : EraseRec} (h : s.ErasingOnly (some r)) (hc : s.canonical = true) {v : SegVol} {x : SegState} (hv : v.state = some x)
    (hx : x ≠ .erasing) : (s.setSeg r.seg v).ErasingOnly none := by
  intro y hy he
  rw [seg_setSeg (segs_of_canonical hc)] at he
  split at he
  · exact absurd (Option.some.inj (hv.symm.trans he)) hx
  · rename_i hne
    exact absurd (Option.some.inj (h y hy he)).symm hne

theorem begun {r : EraseRec} (h : s.ErasingOnly none) (hc : s.canonical = true) : (s.setSegState r.seg .erasing).ErasingOnly (some r) := by
  intro y hy he
  unfold State.setSegState at he
  rw [seg_setSeg (segs_of_canonical hc)] at he
  split at he
  · rename_i hyr
    exact congrArg some hyr.symm
  · cases h y hy he

end State.ErasingOnly

/-- The operations beside which a suspended erase may stand (R108), IDLE among them while the start rule runs. -/
def CurrentOp.besideErase : CurrentOp → Bool
  | .idle | .commit _ | .configWrite _ => true
  | _ => false

theorem CurrentOp.besideErase_bare (x : CurrentOp) : x.bare.besideErase = x.besideErase := by
  cases x <;> rfl

theorem CurrentOp.not_alone_of_beside {x : CurrentOp} (h : x.besideErase = true) : x.alone ≠ true := by
  cases x <;> first | exact Bool.false_ne_true | exact absurd h Bool.false_ne_true

/-- The ERASING segment is that of the erase in progress, and a suspended erase stands beside a COMMIT or CONFIG_WRITE. -/
structure State.OneErasing (s : State) : Prop where
  canonical : s.canonical = true
  erasing : s.ErasingOnly s.eraseNow
  beside : s.suspended = none ∨ s.op.besideErase = true

/-- The engine is free, and the ERASING segment is that of the suspended erase. -/
structure State.FreeErasing (a : Bool) (s : State) : Prop where
  canonical : s.canonical = true
  erasing : s.ErasingOnly s.suspended
  alone : a = true → s.suspended = none

theorem eraseNow_of_erase {s : State} {e : EraseRec} (h : s.op = .erase e) : s.eraseNow = some e := by
  unfold State.eraseNow
  rw [h]

theorem eraseNow_of_noErase {s : State} (h : s.noErase) : s.eraseNow = s.suspended := by
  unfold State.eraseNow
  split
  · rename_i e he
    exact absurd he (h e)
  · rfl

theorem eraseNow_bare {s t : State} (h : SameJobs s t) : t.eraseNow.map EraseRec.bare = s.eraseNow.map EraseRec.bare := by
  by_cases hn : s.noErase
  · rw [eraseNow_of_noErase hn, eraseNow_of_noErase (h.noErase hn)]
    exact h.suspended
  · obtain ⟨e, he⟩ := erase_of_not_noErase hn
    obtain ⟨e', he', hb⟩ := h.erase he
    rw [eraseNow_of_erase he, eraseNow_of_erase he']
    exact congrArg some hb

theorem State.OneErasing.of_segs {s t : State} (h : s.OneErasing) (hs : SameRecords s t) : t.OneErasing where
  canonical := hs.canonical h.canonical
  erasing := (h.erasing.of_segs hs.segs).of_bare (eraseNow_bare hs.jobs)
  beside := h.beside.imp hs.jobs.suspended_none fun hb => by
    rw [← CurrentOp.besideErase_bare, hs.jobs.op, CurrentOp.besideErase_bare]
    exact hb

/-- Beside the current erase none is suspended. -/
theorem State.OneErasing.current {s : State} (h : s.OneErasing) {e : EraseRec} (he : s.op = .erase e) :
    s.ErasingOnly (some e) ∧ s.suspended = none := by
  have hx := h.erasing
  have hb := h.beside
  rw [eraseNow_of_erase he] at hx
  rw [he] at hb
  exact ⟨hx, hb.resolve_right Bool.false_ne_true⟩

theorem State.OneErasing.reset {s : State} (hc : s.canonical = true) (x : OpState) : (s.volatileReset x).OneErasing where
  canonical := canonical_volatileReset x hc
  erasing := fun y _ he => by rw [seg_nil rfl] at he; cases he
  beside := .inl rfl

theorem erasing_setAllSegments {s : State} (hc : s.canonical = true) (m : Mount) {x : Nat} (hx : x < 32) :
    ((s.setAllSegments m).seg x).state ≠ some .erasing := by
  rw [setAllSegments_eq, seg_setSegs_range hc, if_pos (by omega)]
  intro e
  have h := Option.some.inj e
  rw [if_pos (show x < Config.routeSegments from hx)] at h
  by_cases hs : m.stamped x = true
  · rw [routeState_stamped hs] at h
    split at h
    · cases h
    · split at h <;> cases h
  · rw [routeState_unstamped hs] at h
    cases h

theorem erasing_allocate {s : State} (hc : s.canonical = true) (g : Nat) (x : Nat) (he : ((s.allocate g).seg x).state = some .erasing) :
    (s.seg x).state = some .erasing := by
  have quiet : ∀ {u : State} {y : Nat} {v : SegVol}, u.canonical = true → v.state ≠ some .erasing →
      ((u.setSeg y v).seg x).state = some .erasing → (u.seg x).state = some .erasing := fun hu hv hx => by
    rw [seg_setSeg (segs_of_canonical hu)] at hx
    split at hx
    · exact absurd hx hv
    · exact hx
  unfold State.allocate State.setSegFill State.setSegState at he
  split at he
  · exact quiet hc (fun e => by cases e) (quiet (canonical_setSeg _ _ hc) (fun e => by cases e) he)
  · exact quiet hc (fun e => by cases e) he

theorem erasing_openConfigSegment {s : State} (hc : s.canonical = true) (g : CfgSeg) (x : Nat)
    (he : ((s.openConfigSegment g).seg x).state = some .erasing) : (s.seg x).state = some .erasing := by
  rw [seg_openConfigSegment hc] at he
  split at he
  · cases he
  · split at he
    · cases he
    · exact he

theorem oneErasing_rules : RecordRules State.OneErasing (fun a _ s => s.FreeErasing a) where
  freeSame hF hs := ⟨hs.canonical hF.canonical, (hF.erasing.of_segs hs.segs).of_bare hs.jobs.suspended,
    fun ha => hs.jobs.suspended_none (hF.alone ha)⟩
  freeSeg g v _ hv hF := ⟨canonical_setSeg g v hF.canonical, hF.erasing.setSeg hF.canonical g hv, hF.alone⟩
  freeAllocate {a _ s} g _ hF := by
    have hs : (s.allocate g).suspended = s.suspended := allocate_keeps (P := fun u => u.suspended = s.suspended) (fun _ _ _ h => h) g rfl
    refine ⟨canonical_allocate g hF.canonical, ?_, fun ha => hs.trans (hF.alone ha)⟩
    rw [hs]
    exact hF.erasing.of_erasing fun x _ => erasing_allocate hF.canonical g x
  freeOpenCfg {a _ s} g hF := by
    have hs : (s.openConfigSegment g).suspended = s.suspended :=
      openConfigSegment_keeps (P := fun u => u.suspended = s.suspended) (fun _ _ _ h => h) g rfl
    refine ⟨canonical_stable.openConfigSegment s g hF.canonical, ?_, fun ha => hs.trans (hF.alone ha)⟩
    rw [hs]
    exact hF.erasing.of_erasing fun x _ => erasing_openConfigSegment hF.canonical g x
  freeSetAll {a _ s} m hF := by
    have hs : (s.setAllSegments m).suspended = s.suspended :=
      setAllSegments_keeps (P := fun u => u.suspended = s.suspended) (fun _ _ _ h => h) m rfl
    exact ⟨canonical_stable.setAllSegments s m hF.canonical, fun x hx he => absurd he (erasing_setAllSegments hF.canonical m hx),
      fun ha => hs.trans (hF.alone ha)⟩
  freeDrop _ hF := ⟨hF.canonical, hF.erasing, hF.alone⟩
  freeTake _ hF := ⟨hF.canonical, hF.erasing, hF.alone⟩
  freeOp _ hF := ⟨hF.canonical, hF.erasing, hF.alone⟩
  freeReset x hF := .reset hF.canonical x
  set {a o s x} hF hx := by
    have hn : ({ s with op := x } : State).noErase := fun e (he : x = .erase e) => by
      rw [he] at hx
      exact hx
    refine ⟨hF.canonical, ?_, ?_⟩
    · rw [eraseNow_of_noErase hn]
      exact hF.erasing
    · cases x with
      | idle => exact .inr rfl
      | commit b => exact .inr rfl
      | configWrite w => exact .inr rfl
      | erase e => exact hx.elim
      | mount m => exact .inl (hF.alone hx)
      | reclaim r => exact .inl (hF.alone hx.1)
      | restart r => exact .inl (hF.alone hx.1)
  erase {s} e hF := by
    have hs := hF.alone rfl
    have hx := hF.erasing
    rw [hs] at hx
    exact ⟨canonical_setSeg _ _ hF.canonical, hx.begun hF.canonical, .inl hs⟩
  free {s a} hM hn ha := by
    have hx := hM.erasing
    rw [eraseNow_of_noErase hn] at hx
    refine ⟨hM.canonical, hx, fun e => (ha e).elim (fun hal => hM.beside.resolve_right fun hb =>
      CurrentOp.not_alone_of_beside hb hal) id⟩
  stamped {s e} x hM he _ hx := by
    obtain ⟨hE, hs⟩ := hM.current he
    refine ⟨canonical_setSeg _ _ hM.canonical, ?_, fun _ => hs⟩
    have hEnd := hE.ended (v := { s.seg e.seg with state := some x, fill := some 0 }) hM.canonical rfl hx
    rw [← hs] at hEnd
    exact hEnd
  same hM hs := hM.of_segs hs
  seg {s} g v hv hM := ⟨canonical_setSeg _ _ hM.canonical, hM.erasing.setSeg hM.canonical g fun e => hv ▸ e, hM.beside⟩
  enqueue _ hM _ := ⟨hM.canonical, hM.erasing, hM.beside⟩
  drop _ hM := ⟨hM.canonical, hM.erasing, hM.beside⟩
  reset x hM := .reset hM.canonical x
  resume {s e} hM hi hs := by
    refine ⟨hM.canonical, ?_, .inl rfl⟩
    have hx := hM.erasing
    rw [eraseNow_of_noErase fun e he => (by rw [hi] at he; cases he), hs] at hx
    exact hx
  suspend {s e} hM he := ⟨hM.canonical, (hM.current he).1, fun ha => by cases ha⟩
  ends {s e} hM he := by
    have hc : (s.setSegFill e.seg .torn 0).canonical = true := canonical_setSeg _ _ hM.canonical
    unfold State.discardErase
    split
    · rename_i x hx
      obtain ⟨-, hs⟩ := hM.current hx
      have hE : s.ErasingOnly (some e) := by
        obtain h | h := he
        · exact (hM.current h).1
        · rw [hs] at h
          cases h
      have hEnd := hE.ended (v := { s.seg e.seg with state := some .torn, fill := some 0 }) hM.canonical rfl (by decide)
      rw [← hs] at hEnd
      exact ⟨hc, hEnd, .inl hs⟩
    · rename_i hn
      have hns : s.noErase := hn
      have hnt : ({ s.setSegFill e.seg .torn 0 with suspended := none } : State).noErase := hn
      obtain h | h := he
      · exact absurd h (hns e)
      · have hE := hM.erasing
        rw [eraseNow_of_noErase hns, h] at hE
        refine ⟨hc, ?_, .inl rfl⟩
        rw [eraseNow_of_noErase hnt]
        exact hE.ended (v := { s.seg e.seg with state := some .torn, fill := some 0 }) hM.canonical rfl (by decide)

theorem oneErase_iff (s : State) : s.canonical = true ∧ s.oneErase = true ↔ s.OneErasing ∧ s.idleAlone := by
  have hseg : ((List.range Config.routeSegments).all fun g => !s.segIs g .erasing || decide (s.eraseNow.map EraseRec.seg = some g)) = true ↔
      s.ErasingOnly s.eraseNow := by
    simp only [List.all_eq_true, List.mem_range, Bool.or_eq_true, Bool.not_eq_true', decide_eq_true_eq, ← Bool.not_eq_true, State.segIs_iff,
      ← Decidable.imp_iff_not_or]
    rfl
  have hbeside : (match s.op with
      | .commit _ => true
      | .configWrite _ => true
      | _ => s.suspended.isNone) = true ↔ (s.suspended = none ∨ s.op.besideErase = true) ∧ s.idleAlone := by
    unfold State.idleAlone
    cases s.op <;> simp [CurrentOp.besideErase]
  unfold State.oneErase
  rw [Bool.and_eq_true, hseg]
  constructor
  · rintro ⟨hc, hx, hb⟩
    obtain ⟨hb, hi⟩ := hbeside.1 hb
    exact ⟨⟨hc, hx, hb⟩, hi⟩
  · rintro ⟨⟨hc, hx, hb⟩, hi⟩
    exact ⟨hc, hx, hbeside.2 ⟨hb, hi⟩⟩

/-- HELD, the engine is free. -/
theorem freeErasing_of_held {s : State} (hh : s.heldByReset = true) (hM : s.OneErasing) (hi : s.idleAlone) (ho : s.opState = .held) :
    s.FreeErasing true := by
  have hr : s.AtRest := ((heldByReset_iff s).1 hh).resolve_right fun h => by
    rw [ho] at h
    exact absurd h.1 Bool.false_ne_true
  have hx := hM.erasing
  rw [eraseNow_of_noErase hr.noErase] at hx
  exact ⟨hM.canonical, hx, fun _ => hi hr.op⟩

/-- Settles O11, by four predicates that the operations keep: one OPEN route segment, one OPEN configuration segment, the ERASING
segment tied to its record with the engine free or not, and HELD at rest. -/
theorem stepKeepsOneOpenOneErasingAndHeldWithReset : Obligations.StepKeepsOneOpenOneErasingAndHeldWithReset := by
  refine ⟨fun s t hc h hs => ?_, fun s t hc h hs => ?_, fun s t hc hh h hs => ?_, fun s t h hs => ?_⟩
  all_goals obtain ⟨-, rfl⟩ | ⟨c, rest, -, he⟩ := step_cases hs
  · exact h
  · have h' : ({ s with pending := rest } : State).canonical = true ∧ ({ s with pending := rest } : State).OneOpen :=
      ⟨hc, (State.oneOpen_iff s).2 h⟩
    have ht := exec_keeps oneOpen_stable (fun _ _ x g hx => ⟨canonical_erased x g hx.1, hx.2⟩) h' he
    exact (State.oneOpen_iff t).1 ht.2
  · exact h
  · have hM : Calm False State.OneOpenCfg { s with pending := rest } := ⟨⟨hc, h⟩, False.elim⟩
    exact (oneOpenCfg_rules.engine.calm_exec (s := { s with pending := rest }) False.elim (fun _ => ⟨hc, h⟩) hM he).1.2
  · exact h
  · have hs' : ({ s with pending := rest } : State).canonical = true ∧ ({ s with pending := rest } : State).oneErase = true := ⟨hc, h⟩
    obtain ⟨hM, hi⟩ := (oneErase_iff _).1 hs'
    have held : s.opState = .held → ({ s with pending := rest, resetAsserted := false } : State).FreeErasing true := fun ho => by
      obtain ⟨h1, h2, h3⟩ := freeErasing_of_held (s := { s with pending := rest }) hh hM hi ho
      exact ⟨h1, h2, h3⟩
    have ht := oneErasing_rules.engine.calm_exec (D := True) (s := { s with pending := rest })
      (fun _ u hu ha => hu.beside.resolve_right fun hb => CurrentOp.not_alone_of_beside hb ha) held ⟨hM, fun _ => hi⟩ he
    exact ((oneErase_iff t).2 ⟨ht.1, ht.2 trivial⟩).2
  · exact h
  · exact heldByReset_exec (s := { s with pending := rest }) h he

end Sys2Proof.Machine
end

section
/-! PROOF. The banks in order (R90 to R98, R102): what is asked of a bank unit, with an erase and a suspended-erase record in view,
and the grants and claims that keep it. -/

namespace Sys2Proof.Machine

open Sys2Proof

/-! ## A bank unit in order -/

/-- The segment of an erase that stands suspended in a bank (R73, R94). -/
def standsIn (e : Option EraseRec) (b : Bank) : Option Nat :=
  match e with
  | some x => if x.step = .suspended ∧ bankOf x.seg = b then some x.seg else none
  | none => none

/-- An erase works in a bank (R91). -/
def worksIn (e : Option EraseRec) (b : Bank) : Prop :=
  ∃ x, e = some x ∧ bankOf x.seg = b ∧ x.step.atWork = true

/-- What a claim on a bank is for: a program of the bank, the erase at CLAIMED there, or a read of the engine. -/
def claimFits (e : Option EraseRec) (b : Bank) : Claim → Prop
  | .program p => p.bank? = some b
  | .erase g => (∃ x, e = some x ∧ x.step = .claimed ∧ bankOf x.seg = b) ∧ bankOf g = b
  | .resume _ => False
  | .read _ => True

/-- A bank unit's reads, marker, claim and suspended segment agree with the lookup stages, with the current erase `e` and with the
suspended-erase record `y`. -/
structure BankRest (e y : Option EraseRec) (b : Bank) (u : BankUnit) (st : PerPort Stage) : Prop where
  nodup : (u.queue.map QueuedRead.stage).Nodup
  queued : ∀ q ∈ u.queue, ∃ h, st.get q.stage = .waitBank h ∧ h.addr = q.addr ∧ bankOf q.addr.seg = b
  reading : ∀ r p, u.inFlight = some r → r.party = .lookup p →
    ∃ h, st.get p = .reading h ∧ r.target = .slot h.addr ∧ bankOf h.addr.seg = b
  marker : u.marker = u.queue.countP QueuedRead.counted + u.inFlight.toList.countP InFlight.counted
  claim : ∀ c, u.claim = some c → claimFits e b c
  suspended : u.suspended = standsIn (e.or y) b

/-- A bank unit's state agrees with its reads and its claim, with the current erase `e` and with the program `pr` in progress. -/
structure BankWork (e : Option EraseRec) (b : Bank) (u : BankUnit) (pr : Option Program) : Prop where
  flight : ∀ r, u.inFlight = some r → u.state.readable = true ∨ (u.state = .draining ∧ r.counted = true)
  held : ∀ c, u.claim = some c → u.state.readable = false
  programming : u.state = .programming ↔ pr.bind Program.bank? = some b
  erasing : u.state = .eraseRunning ∨ u.state = .suspendWait → worksIn e b
  running : ∀ x, e = some x → bankOf x.seg = b → x.step.atWork = true →
    u.state = .eraseRunning ∨ (u.state = .suspendWait ∧ x.step ≠ .running)
  free : u.state = .free → u.suspended = none
  eraseSuspended : u.state = .eraseSuspended → u.suspended ≠ none

theorem standsIn_eq_none {e : Option EraseRec} {b : Bank} (h : ∀ x, e = some x → x.step = .suspended → bankOf x.seg ≠ b) :
    standsIn e b = none := by
  unfold standsIn
  split
  · rename_i x
    exact if_neg fun hx => h x rfl hx.1 hx.2
  · rfl

theorem standsIn_some {x : EraseRec} (h : x.step = .suspended) : standsIn (some x) (bankOf x.seg) = some x.seg :=
  if_pos ⟨h, rfl⟩

/-! ## Changes of a unit -/

namespace BankRest

variable {e y : Option EraseRec} {b : Bank} {u : BankUnit} {st : PerPort Stage}

theorem setState (h : BankRest e y b u st) (x : BankState) : BankRest e y b { u with state := x } st := { h with }

theorem noClaim (h : BankRest e y b u st) (x : BankState) : BankRest e y b { u with state := x, claim := none } st :=
  { h with claim := fun _ hc => by cases hc }

/-- With nothing counted the marker stands at 0. -/
theorem uncounted (h : BankRest e y b u st) (hm : u.marker = 0) : u.queue.countP QueuedRead.counted = 0 ∧
    u.inFlight.toList.countP InFlight.counted = 0 := by
  have := h.marker
  omega

theorem notCounted (h : BankRest e y b u st) (hm : u.marker = 0) {r : InFlight} (hr : u.inFlight = some r) : r.counted = false := by
  have hc := (h.uncounted hm).2
  rw [hr] at hc
  cases hk : r.counted with
  | false => rfl
  | true => simp [hk] at hc

/-- A read of the engine starts in a bank without a counted read (R96, R99). -/
theorem engineRead (h : BankRest e y b u st) (hm : u.marker = 0) (x : BankState) (t : ReadTarget) :
    BankRest e y b { u with state := x, claim := none, inFlight := some ⟨t, .engine, false⟩ } st :=
  { h.noClaim x with
    reading := fun r p hr hp => by
      obtain rfl := Option.some.inj hr
      cases hp
    marker := by
      have := (h.uncounted hm).1
      simp [hm, this] }

/-- A claim recorded: every waiting read is counted (R95). -/
theorem claimed (h : BankRest e y b u st) {c : Claim} (hc : claimFits e b c) : BankRest e y b (u.claimed c) st where
  nodup := by
    have hm : (u.claimed c).queue.map QueuedRead.stage = u.queue.map QueuedRead.stage := by
      simp [BankUnit.claimed, Function.comp_def]
    rw [hm]
    exact h.nodup
  queued q hq := by
    obtain ⟨q', hq', rfl⟩ := List.mem_map.1 hq
    exact h.queued q' hq'
  reading r p hr hp := by
    obtain ⟨r', hr', rfl⟩ := Option.map_eq_some_iff.1 hr
    exact h.reading r' p hr' hp
  marker := by
    have hq : (u.claimed c).queue.countP QueuedRead.counted = u.queue.length := by
      simp [BankUnit.claimed, Function.comp_def]
    have hi : (u.claimed c).inFlight.toList.countP InFlight.counted = if u.inFlight.isSome then 1 else 0 := by
      cases hu : u.inFlight <;> simp [BankUnit.claimed, hu]
    rw [hq, hi]
    rfl
  claim c' hc' := Option.some.inj hc' ▸ hc
  suspended := h.suspended

/-- A lookup stage changes that the bank does not serve. -/
theorem setStageOf (h : BankRest e y b u st) {p : Port} (g : Stage) (hq : ∀ q ∈ u.queue, q.stage ≠ p)
    (hr : ∀ r, u.inFlight = some r → r.party ≠ .lookup p) : BankRest e y b u (st.set p g) :=
  { h with
    queued := fun q hm => by
      obtain ⟨x, hx, ha, hb⟩ := h.queued q hm
      exact ⟨x, (PerPort.get_set_other _ _ (hq q hm)).trans hx, ha, hb⟩
    reading := fun r q hi hp => by
      obtain ⟨x, hx, ha, hb⟩ := h.reading r q hi hp
      have hne : q ≠ p := fun he => hr r hi (he ▸ hp)
      exact ⟨x, (PerPort.get_set_other _ _ hne).trans hx, ha, hb⟩ }

/-- A stage whose frame is not looked up in the bank is not served there. -/
theorem not_served (h : BankRest e y b u st) {p : Port}
    (hp : ∀ x, st.get p = .waitBank x ∨ st.get p = .reading x → bankOf x.addr.seg ≠ b) :
    (∀ q ∈ u.queue, q.stage ≠ p) ∧ ∀ r, u.inFlight = some r → r.party ≠ .lookup p := by
  refine ⟨fun q hq he => ?_, fun r hr he => ?_⟩
  · obtain ⟨x, hx, ha, hb⟩ := h.queued q hq
    exact hp x (.inl (he ▸ hx)) (by rw [ha]; exact hb)
  · obtain ⟨x, hx, -, hb⟩ := h.reading r p hr he
    exact hp x (.inr hx) hb

theorem setStage (h : BankRest e y b u st) {p : Port} (g : Stage)
    (hp : ∀ x, st.get p = .waitBank x ∨ st.get p = .reading x → bankOf x.addr.seg ≠ b) : BankRest e y b u (st.set p g) :=
  h.setStageOf g (h.not_served hp).1 (h.not_served hp).2

/-- The erase of another bank goes on. -/
theorem elsewhere {x x' : EraseRec} (h : BankRest (some x) y b u st) (hs : x'.seg = x.seg) (hb : bankOf x.seg ≠ b) :
    BankRest (some x') y b u st :=
  { h with
    claim := fun c hc => by
      have hf := h.claim c hc
      cases c with
      | program p => exact hf
      | erase g =>
        obtain ⟨⟨z, hz, -, hzb⟩, -⟩ := hf
        exact absurd (Option.some.inj hz ▸ hzb) hb
      | resume g => exact hf
      | read t => exact hf
    suspended := by
      have none : ∀ z : EraseRec, z.seg = x.seg → standsIn (some z) b = none := fun z hz =>
        standsIn_eq_none fun w hw _ => by
          rw [← Option.some.inj hw, hz]
          exact hb
      rw [h.suspended]
      exact (none x rfl).trans (none x' hs).symm }

end BankRest

namespace BankWork

variable {e : Option EraseRec} {b : Bank} {u : BankUnit} {pr : Option Program}

/-- The bank returns to rest (R97). -/
theorem rested (hf : ∀ c, u.claim ≠ some c) (hp : pr.bind Program.bank? ≠ some b) (hw : ¬ worksIn e b) :
    BankWork e b { u with state := u.restState } pr := by
  have hr : u.restState = .free ∧ u.suspended = none ∨ u.restState = .eraseSuspended ∧ u.suspended ≠ none := by
    unfold BankUnit.restState
    cases u.suspended <;> simp
  have hne : u.restState ≠ .programming ∧ ¬ (u.restState = .eraseRunning ∨ u.restState = .suspendWait) ∧ u.restState.readable = true := by
    obtain ⟨h, -⟩ | ⟨h, -⟩ := hr <;> rw [h] <;> decide
  obtain ⟨hnp, hne, hread⟩ := hne
  exact
    { flight := fun _ _ => .inl hread
      held := fun c hc => absurd hc (hf c)
      programming := iff_of_false hnp hp
      erasing := fun h => absurd h hne
      running := fun x hx hb ha => absurd ⟨x, hx, hb, ha⟩ hw
      free := fun h => (hr.resolve_right fun h' => by rw [h'.1] at h; cases h).2
      eraseSuspended := fun h => (hr.resolve_left fun h' => by rw [h'.1] at h; cases h).2 }

/-- The bank drains its counted reads (R95). -/
theorem draining (hf : ∀ r, u.inFlight = some r → r.counted = true) (hp : pr.bind Program.bank? ≠ some b) (hw : ¬ worksIn e b) :
    BankWork e b { u with state := .draining } pr where
  flight r hr := .inr ⟨rfl, hf r hr⟩
  held _ _ := rfl
  programming := iff_of_false BankState.noConfusion hp
  erasing h := by obtain h | h := h <;> cases h
  running x hx hb ha := absurd ⟨x, hx, hb, ha⟩ hw
  free h := by cases h
  eraseSuspended h := by cases h

theorem noProgram (h : BankWork e b u pr) (hs : u.state ≠ .programming) : pr.bind Program.bank? ≠ some b :=
  mt h.programming.2 hs

theorem noErase (h : BankWork e b u pr) (hs : u.state ≠ .eraseRunning ∧ u.state ≠ .suspendWait) : ¬ worksIn e b := by
  rintro ⟨x, hx, hb, ha⟩
  obtain h' | ⟨h', -⟩ := h.running x hx hb ha
  · exact hs.1 h'
  · exact hs.2 h'

/-- A bank at work has no read in flight. -/
theorem noFlight (h : BankWork e b u pr) (hs : u.state.withholds = true) : u.inFlight = none := by
  cases hi : u.inFlight with
  | none => rfl
  | some r =>
    exfalso
    obtain hr | ⟨hd, -⟩ := h.flight r hi
    · revert hs hr
      cases u.state <;> decide
    · rw [hd] at hs
      cases hs

/-- The program and the erase of another bank go on. -/
theorem elsewhere (h : BankWork e b u pr) {e' : Option EraseRec} {pr' : Option Program} (hp : pr.bind Program.bank? ≠ some b)
    (hp' : pr'.bind Program.bank? ≠ some b) (hw : ¬ worksIn e b) (hw' : ¬ worksIn e' b) : BankWork e' b u pr' :=
  { h with
    programming := iff_of_false (mt h.programming.1 hp) hp'
    erasing := fun hs => absurd (h.erasing hs) hw
    running := fun x hx hb ha => absurd ⟨x, hx, hb, ha⟩ hw' }

end BankWork

/-! ## The banks in order -/

/-- The current erase, when it is in view. -/
def State.erase? (s : State) (c : Bool) : Option EraseRec :=
  match c, s.op with
  | true, .erase x => some x
  | _, _ => none

theorem erase?_eq_some {s : State} {c : Bool} {x : EraseRec} : s.erase? c = some x ↔ c = true ∧ s.op = .erase x := by
  unfold State.erase?
  split
  · rename_i z hz
    simp [hz]
  · rename_i hn
    simp only [reduceCtorEq, false_iff]
    rintro ⟨rfl, hx⟩
    exact hn _ rfl hx

theorem erase?_false (s : State) : s.erase? false = none := rfl

theorem erase?_of_op {s t : State} (h : t.op = s.op) (c : Bool) : t.erase? c = s.erase? c := by
  unfold State.erase?
  rw [h]

theorem erase?_of_noErase {s : State} (h : s.noErase) (c : Bool) : s.erase? c = none := by
  cases hx : s.erase? c with
  | none => rfl
  | some x => exact absurd (erase?_eq_some.1 hx).2 (h x)

/-- At most one program is claimed or in progress, and it is one of the programs `w` that the current operation issues; an erase
issues one at STAMPING only. -/
structure State.ProgramsOk (w : CurrentOp → Program → Prop) (s : State) : Prop where
  issued : ∀ p, (s.program = some p ∨ ∃ b, (s.bank b).claim = some (.program p)) → w s.op p
  single : ∀ b p, (s.bank b).claim = some (.program p) →
    s.program = none ∧ ∀ b' q, (s.bank b').claim = some (.program q) → b' = b
  stamping : ∀ x p, w (.erase x) p → x.step = .stamping

/-- The banks in order but for the state of one, the current erase in view or not, beside the suspended-erase record `y`. -/
structure State.InOrderBut (b : Bank) (w : CurrentOp → Program → Prop) (c : Bool) (y : Option EraseRec) (s : State) : Prop where
  rest : ∀ b', BankRest (s.erase? c) y b' (s.bank b') s.stages
  work : ∀ b', b' ≠ b → BankWork (s.erase? c) b' (s.bank b') s.program
  programs : s.ProgramsOk w
  record : y ≠ none → s.suspended = y

/-- The banks in order. -/
structure State.InOrder (w : CurrentOp → Program → Prop) (c : Bool) (y : Option EraseRec) (s : State) : Prop where
  rest : ∀ b, BankRest (s.erase? c) y b (s.bank b) s.stages
  work : ∀ b, BankWork (s.erase? c) b (s.bank b) s.program
  programs : s.ProgramsOk w
  record : y ≠ none → s.suspended = y

theorem State.InOrder.but {b : Bank} {w : CurrentOp → Program → Prop} {c : Bool} {y : Option EraseRec} {s : State} (h : s.InOrder w c y) :
    s.InOrderBut b w c y :=
  ⟨h.rest, fun b' _ => h.work b', h.programs, h.record⟩

/-- No program is made in the bank and no erase works there. -/
def State.workless (s : State) (c : Bool) (b : Bank) : Prop :=
  s.program.bind Program.bank? ≠ some b ∧ ¬ worksIn (s.erase? c) b

theorem State.ProgramsOk.setBank {w : CurrentOp → Program → Prop} {s : State} (h : s.ProgramsOk w) {b : Bank} {u : BankUnit}
    (hu : ∀ p, u.claim = some (.program p) → (s.bank b).claim = some (.program p)) : (s.setBank b u).ProgramsOk w := by
  have back : ∀ b' p, ((s.setBank b u).bank b').claim = some (.program p) → (s.bank b').claim = some (.program p) := by
    intro b' p hp
    rw [State.bank_setBank] at hp
    split at hp
    · rename_i he
      rw [he]
      exact hu p hp
    · exact hp
  refine ⟨fun p hp => h.issued p (hp.imp id fun ⟨b', hb'⟩ => ⟨b', back b' p hb'⟩), fun b' p hp => ?_, h.stamping⟩
  obtain ⟨hn, hs⟩ := h.single b' p (back b' p hp)
  exact ⟨hn, fun b'' q hq => hs b'' q (back b'' q hq)⟩

namespace State.InOrderBut

variable {b : Bank} {w : CurrentOp → Program → Prop} {c : Bool} {y : Option EraseRec} {s : State}

theorem setBankOf (h : s.InOrderBut b w c y) {u : BankUnit} (hr : BankRest (s.erase? c) y b u s.stages)
    (hp : (s.setBank b u).ProgramsOk w) : (s.setBank b u).InOrderBut b w c y where
  rest b' := by
    rw [State.bank_setBank]
    split
    · rename_i he
      rw [he]
      exact hr
    · exact h.rest b'
  work b' hne := by
    rw [State.bank_setBank_other _ _ hne]
    exact h.work b' hne
  programs := hp
  record := h.record

theorem setBank (h : s.InOrderBut b w c y) {u : BankUnit} (hr : BankRest (s.erase? c) y b u s.stages)
    (hu : ∀ p, u.claim = some (.program p) → (s.bank b).claim = some (.program p)) : (s.setBank b u).InOrderBut b w c y :=
  h.setBankOf hr (h.programs.setBank hu)

theorem close (h : s.InOrderBut b w c y) (hw : BankWork (s.erase? c) b (s.bank b) s.program) : s.InOrder w c y where
  rest := h.rest
  work b' := by
    by_cases he : b' = b
    · rw [he]
      exact hw
    · exact h.work b' he
  programs := h.programs
  record := h.record

/-- The bank set to a unit in order closes the gap. -/
theorem closeBank (h : s.InOrderBut b w c y) {u : BankUnit} (hr : BankRest (s.erase? c) y b u s.stages)
    (hu : ∀ p, u.claim = some (.program p) → (s.bank b).claim = some (.program p)) (hw : BankWork (s.erase? c) b u s.program) :
    (s.setBank b u).InOrder w c y :=
  (h.setBank hr hu).close (by rw [State.bank_setBank_same]; exact hw)

/-! ## Grants -/

theorem grantProgram (h : s.InOrderBut b w c y) {p : Program} (hk : (s.bank b).claim = some (.program p)) (hi : (s.bank b).inFlight = none)
    (hw : s.workless c b) :
    (s.grant b (.program p)).InOrder w c y := by
  obtain ⟨hp, he⟩ := hw
  have hr := h.rest b
  obtain ⟨hnone, hone⟩ := h.programs.single b p hk
  have hbank : Program.bank? p = some b := hr.claim _ hk
  have h1 := h.setBank (u := { s.bank b with state := .programming, claim := none }) (hr.noClaim _) (fun p hp => by cases hp)
  have claims : ∀ b' q, ((s.setBank b { s.bank b with state := .programming, claim := none }).bank b').claim ≠ some (.program q) := by
    intro b' q hq
    rw [State.bank_setBank] at hq
    split at hq
    · cases hq
    · rename_i hne
      exact hne (hone b' q hq)
  refine ⟨h1.rest, fun b' => ?_, ⟨fun q hq => ?_, fun b' q hq => absurd hq (claims b' q), h.programs.stamping⟩, h.record⟩
  · by_cases hb : b' = b
    · subst hb
      change BankWork (s.erase? c) b' ((s.setBank b' _).bank b') (some p)
      rw [State.bank_setBank_same]
      exact
        { flight := fun r hx => by rw [show (s.bank b').inFlight = some r from hx] at hi; cases hi
          held := fun _ hx => by cases hx
          programming := iff_of_true rfl hbank
          erasing := fun hx => by obtain hx | hx := hx <;> cases hx
          running := fun x hx hxb ha => absurd ⟨x, hx, hxb, ha⟩ he
          free := fun hx => by cases hx
          eraseSuspended := fun hx => by cases hx }
    · have hwb := h1.work b' hb
      change BankWork (s.erase? c) b' _ s.program at hwb
      refine { hwb with programming := iff_of_false (mt hwb.programming.1 ?_) ?_ }
      · rw [hnone]
        exact fun hx => by cases hx
      · exact fun hx => hb (Option.some.inj ((show p.bank? = some b' from hx).symm.trans hbank))
  · obtain hq | ⟨b', hq⟩ := hq
    · exact Option.some.inj hq ▸ h.programs.issued p (.inr ⟨b, hk⟩)
    · exact absurd hq (claims b' q)

theorem grantErase (h : s.InOrderBut b w c y) {g : Nat} (hk : (s.bank b).claim = some (.erase g)) (hi : (s.bank b).inFlight = none)
    (hw : s.workless c b) :
    (s.grant b (.erase g)).InOrder w c y := by
  obtain ⟨hp, he⟩ := hw
  have hr := h.rest b
  obtain ⟨⟨x, hx, hst, hb⟩, -⟩ := hr.claim _ hk
  obtain ⟨hc, hop⟩ := erase?_eq_some.1 hx
  subst hc
  unfold State.grant
  dsimp only
  rw [mapErase_of_erase (e := x) (by exact hop)]
  generalize s.suspensionReason g = waits
  have hx' : ({ (s.setBank b { s.bank b with state := if waits = true then .suspendWait else .eraseRunning, claim := none }) with
      op := .erase { x with step := if waits = true then .waiting else .running, runTimer := true } } : State).erase? true =
      some { x with step := if waits = true then .waiting else .running, runTimer := true } := rfl
  have atWork : EraseStep.atWork (if waits = true then .waiting else .running) = true := by cases waits <;> rfl
  have noClaims : ∀ q, ¬ w (.erase x) q := fun q hq => by
    have hs := h.programs.stamping x q hq
    rw [hst] at hs
    cases hs
  have none : ∀ q, ¬ (s.program = some q ∨ ∃ b', (s.bank b').claim = some (.program q)) := fun q hq =>
    noClaims q (hop ▸ h.programs.issued q hq)
  have h1 := h.setBank (u := { s.bank b with state := if waits = true then .suspendWait else .eraseRunning, claim := Option.none })
    (hr.noClaim _) (fun p hp => by cases hp)
  have same : (s.setBank b { s.bank b with state := if waits = true then .suspendWait else .eraseRunning, claim := Option.none }).erase? true =
      some x := hx
  refine ⟨fun b' => ?_, fun b' => ?_, ⟨fun q hq => ?_, fun b' q hq => ?_, h.programs.stamping⟩, h.record⟩
  · rw [hx']
    have hrb := h1.rest b'
    rw [same] at hrb
    by_cases hbb : b' = b
    · subst hbb
      refine { hrb with claim := fun k hk => ?_, suspended := ?_ }
      · change ((s.setBank b' _).bank b').claim = some k at hk
        rw [State.bank_setBank_same] at hk
        cases hk
      · refine hrb.suspended.trans ((standsIn_eq_none fun z hz hzs => ?_).trans (standsIn_eq_none fun z hz hzs => ?_).symm)
        · obtain rfl := Option.some.inj hz
          rw [hst] at hzs
          cases hzs
        · obtain rfl := Option.some.inj hz
          cases waits <;> cases hzs
    · exact hrb.elsewhere rfl fun h' => hbb (h'.symm.trans hb)
  · rw [hx']
    by_cases hbb : b' = b
    · subst hbb
      change BankWork _ b' ((s.setBank b' _).bank b') s.program
      rw [State.bank_setBank_same]
      exact
        { flight := fun r hr => by rw [show (s.bank b').inFlight = some r from hr] at hi; cases hi
          held := fun _ hk => by cases hk
          programming := iff_of_false (by cases waits <;> exact BankState.noConfusion) hp
          erasing := fun _ => ⟨_, rfl, hb, atWork⟩
          running := fun z hz _ _ => by
            obtain rfl := Option.some.inj hz
            cases waits
            · exact .inl rfl
            · exact .inr ⟨rfl, EraseStep.noConfusion⟩
          free := fun hs => by cases waits <;> cases hs
          eraseSuspended := fun hs => by cases waits <;> cases hs }
    · have hwb := h1.work b' hbb
      rw [same] at hwb
      have no : ∀ z : EraseRec, z.seg = x.seg → ¬ worksIn (some z) b' := by
        rintro z hz ⟨z', hz', hzb, -⟩
        obtain rfl := Option.some.inj hz'
        rw [hz] at hzb
        exact hbb (hzb.symm.trans hb)
      have hnp : s.program.bind Program.bank? ≠ some b' := by
        cases hsp : s.program with
        | none => exact fun hx => by cases hx
        | some q => exact absurd (.inl hsp) (none q)
      exact hwb.elsewhere hnp hnp (no x rfl) (no _ rfl)
  · exact absurd (hq.imp id fun ⟨b', hb'⟩ => ⟨b', (by
      change ((s.setBank b _).bank b').claim = _ at hb'
      rw [State.bank_setBank] at hb'
      split at hb'
      · cases hb'
      · exact hb')⟩) (none q)
  · exact absurd (.inr ⟨b', (by
      change ((s.setBank b _).bank b').claim = _ at hq
      rw [State.bank_setBank] at hq
      split at hq
      · cases hq
      · exact hq)⟩) (none q)

/-- A claim granted in a bank that no work occupies and that has no counted read (R96). -/
theorem grant (h : s.InOrderBut b w c y) {k : Claim} (hk : (s.bank b).claim = some k) (hi : (s.bank b).inFlight = none)
    (hm : (s.bank b).marker = 0) (hw : s.workless c b) : (s.grant b k).InOrder w c y := by
  have hr := h.rest b
  cases k with
  | program p => exact h.grantProgram hk hi hw
  | erase g => exact h.grantErase hk hi hw
  | resume g => exact (hr.claim _ hk).elim
  | read t =>
    have hwork := BankWork.rested (u := { s.bank b with claim := none, inFlight := some ⟨t, .engine, false⟩ }) (fun _ h => by cases h) hw.1
      hw.2
    exact h.closeBank (hr.engineRead hm _ t) (fun p hp => by cases hp) hwork

end State.InOrderBut

end Sys2Proof.Machine
end

section
/-! PROOF. The banks in order, continued: reads that start, end and are withdrawn, claims, and the release of a bank. -/

namespace Sys2Proof.Machine

open Sys2Proof

/-- No program is claimed or in progress. -/
def State.noPrograms (s : State) : Prop :=
  s.program = none ∧ ∀ b q, (s.bank b).claim ≠ some (.program q)

theorem State.ProgramsOk.claim {w : CurrentOp → Program → Prop} {s : State} (h : s.ProgramsOk w) (hn : s.noPrograms) {b : Bank}
    {u : BankUnit} (hu : ∀ p, u.claim = some (.program p) → w s.op p) : (s.setBank b u).ProgramsOk w := by
  have at_b : ∀ b' q, ((s.setBank b u).bank b').claim = some (.program q) → b' = b ∧ u.claim = some (.program q) := by
    intro b' q hq
    rw [State.bank_setBank] at hq
    split at hq
    · rename_i hb
      exact ⟨hb, hq⟩
    · exact absurd hq (hn.2 b' q)
  refine ⟨fun p hp => ?_, fun b' p hp => ⟨hn.1, fun b'' q hq => ?_⟩, h.stamping⟩
  · obtain hp | ⟨b', hp⟩ := hp
    · cases hn.1.symm.trans (show s.program = some p from hp)
    · exact hu p (at_b b' p hp).2
  · rw [(at_b b'' q hq).1, (at_b b' p hp).1]

theorem State.ProgramsOk.mono {w w' : CurrentOp → Program → Prop} {s t : State} (h : s.ProgramsOk w) (hb : t.banks = s.banks)
    (hp : t.program = s.program) (hw : ∀ p, w s.op p → w' t.op p) (hs : ∀ x p, w' (.erase x) p → x.step = .stamping) : t.ProgramsOk w' := by
  have bank : ∀ b, t.bank b = s.bank b := fun b => congrArg (fun x => PerBank.get x b) hb
  refine ⟨fun p h' => hw p (h.issued p ?_), fun b p h' => ?_, hs⟩
  · rw [hp] at h'
    exact h'.imp id fun ⟨b, hb⟩ => ⟨b, by rw [← bank]; exact hb⟩
  · rw [bank] at h'
    obtain ⟨hn, ho⟩ := h.single b p h'
    exact ⟨hp.trans hn, fun b' q hq => ho b' q (by rw [← bank]; exact hq)⟩

/-! ## Units whose reads go on -/

namespace BankRest

variable {e y : Option EraseRec} {b : Bank} {u : BankUnit} {st : PerPort Stage}

/-- The head of the queue starts (R93). -/
theorem started (h : BankRest e y b u st) {q : QueuedRead} {rest : List QueuedRead} {x : InHand} (hi : u.inFlight = none)
    (hq : u.queue = q :: rest) (hx : st.get q.stage = .waitBank x) :
    BankRest e y b { u with inFlight := some ⟨.slot q.addr, .lookup q.stage, q.counted⟩, queue := rest } (st.set q.stage (.reading x)) := by
  have hnd := h.nodup
  rw [hq, List.map_cons, List.nodup_cons] at hnd
  obtain ⟨hfresh, hnd⟩ := hnd
  exact
    { nodup := hnd
      queued := fun q' hq' => by
        obtain ⟨x', hx', ha', hb'⟩ := h.queued q' (by rw [hq]; exact List.mem_cons_of_mem _ hq')
        have hne : q'.stage ≠ q.stage := fun he => hfresh (List.mem_map.2 ⟨q', hq', he⟩)
        exact ⟨x', (PerPort.get_set_other _ _ hne).trans hx', ha', hb'⟩
      reading := fun r p hr hp => by
        obtain rfl := Option.some.inj hr
        obtain rfl := ReadParty.lookup.inj hp
        obtain ⟨x', hx', ha', hb'⟩ := h.queued q (by rw [hq]; exact List.mem_cons_self)
        obtain rfl := Stage.waitBank.inj (hx.symm.trans hx')
        exact ⟨x, PerPort.get_set_same .., congrArg ReadTarget.slot ha'.symm, by rw [ha']; exact hb'⟩
      marker := by
        have hm := h.marker
        rw [hi, hq, List.countP_cons] at hm
        simpa [List.countP_cons, Nat.add_comm] using hm
      claim := h.claim
      suspended := h.suspended }

/-- The read in flight leaves (R93, R96). -/
theorem flightOver (h : BankRest e y b u st) {r : InFlight} (hi : u.inFlight = some r) :
    BankRest e y b { u with inFlight := none, marker := u.marker - (if r.counted = true then 1 else 0) } st :=
  { h with
    reading := fun _ _ hr => by cases hr
    marker := by
      have hm := h.marker
      rw [hi] at hm
      cases hk : r.counted <;> simp [hk] at hm ⊢ <;> omega }

/-- In a queue without repetition the reads of one stage are at most one. -/
theorem countP_withdrawn {l : List QueuedRead} (hn : (l.map QueuedRead.stage).Nodup) {p : Port} {q : QueuedRead}
    (hq : l.find? (fun x => x.stage = p) = some q) :
    (l.filter (fun x => x.stage ≠ p)).countP QueuedRead.counted + (if q.counted = true then 1 else 0) = l.countP QueuedRead.counted := by
  induction l with
  | nil => cases hq
  | cons z l ih =>
    rw [List.map_cons, List.nodup_cons] at hn
    obtain ⟨hz, hn⟩ := hn
    by_cases hp : z.stage = p
    · rw [List.find?_cons_of_pos (by simpa using hp)] at hq
      obtain rfl := Option.some.inj hq
      have hrest : l.filter (fun x => x.stage ≠ p) = l := List.filter_eq_self.2 fun x hx => by
        have hne : x.stage ≠ p := fun he => hz (List.mem_map.2 ⟨x, hx, he.trans hp.symm⟩)
        simpa using hne
      rw [List.filter_cons_of_neg (by simpa using hp), hrest, List.countP_cons]
    · rw [List.find?_cons_of_neg (by simpa using hp)] at hq
      rw [List.filter_cons_of_pos (by simpa using hp), List.countP_cons, List.countP_cons, ← ih hn hq]
      omega

/-- The queued read of a lookup stage is withdrawn (R101, R141). -/
theorem withdrawn (h : BankRest e y b u st) {p : Port} {q : QueuedRead} {x : InHand} (hq : u.queue.find? (fun x => x.stage = p) = some q)
    (hx : st.get p = .waitBank x) : BankRest e y b { u with queue := u.queue.filter (fun x => x.stage ≠ p)
                                                            marker := u.marker - (if q.counted = true then 1 else 0) } (st.set p .idle) := by
  have h1 : BankRest e y b { u with queue := u.queue.filter (fun x => x.stage ≠ p)
                                    marker := u.marker - (if q.counted = true then 1 else 0) } st :=
    { h with
      nodup := h.nodup.sublist (List.filter_sublist.map _)
      queued := fun q hq => h.queued q ((List.mem_filter.1 hq).1)
      marker := by
        have hm := h.marker
        have hc := countP_withdrawn h.nodup hq
        dsimp only
        omega }
  refine h1.setStageOf .idle (fun q hq => ?_) fun r hr he => ?_
  · simpa using (List.mem_filter.1 hq).2
  · obtain ⟨x', hx', -⟩ := h.reading r p hr he
    cases hx.symm.trans hx'

/-- A lookup stage that is IDLE requests a read in a bank with nothing waiting (R92). -/
theorem readStarts (h : BankRest e y b u st) {p : Port} {x : InHand} (hq : u.queue = []) (hi : u.inFlight = none)
    (hb : bankOf x.addr.seg = b) :
    BankRest e y b { u with inFlight := some ⟨.slot x.addr, .lookup p, false⟩ } (st.set p (.reading x)) :=
  { h with
    queued := fun q hm => by
      rw [show u.queue = [] from hq] at hm
      cases hm
    reading := fun r p' hr hp' => by
      obtain rfl := Option.some.inj hr
      obtain rfl := ReadParty.lookup.inj hp'
      exact ⟨x, PerPort.get_set_same .., rfl, hb⟩
    marker := by
      have hm := h.marker
      rw [hi] at hm
      simpa using hm }

/-- A lookup stage that is IDLE joins the queue of a bank (R92). -/
theorem readQueued (h : BankRest e y b u st) {p : Port} {x : InHand} (n : Nat) (hp : st.get p = .idle) (hb : bankOf x.addr.seg = b) :
    BankRest e y b { u with queue := u.queue ++ [{ addr := x.addr, stage := p, holdUnits := n, counted := false }] }
      (st.set p (.waitBank x)) := by
  have hs := h.not_served (p := p) fun z hz => by rw [hp] at hz; obtain hz | hz := hz <;> cases hz
  have h1 := h.setStageOf (.waitBank x) hs.1 hs.2
  exact
    { h1 with
      nodup := by
        rw [List.map_append, List.nodup_append]
        refine ⟨h.nodup, List.pairwise_singleton _ _, fun a ha z hz => ?_⟩
        obtain ⟨q, hq, rfl⟩ := List.mem_map.1 ha
        obtain rfl := List.mem_singleton.1 hz
        exact hs.1 q hq
      queued := fun q hq => by
        obtain hq | hq := List.mem_append.1 hq
        · exact h1.queued q hq
        · obtain rfl := List.mem_singleton.1 hq
          exact ⟨x, PerPort.get_set_same .., rfl, hb⟩
      marker := by
        have hm := h.marker
        simpa [List.countP_append] using hm }

end BankRest

/-! ## The banks in order -/

/-- The last counted read has left a DRAINING bank: its claim is granted, or it returns to rest (R96). -/
def State.drainEnds (b : Bank) (s : State) : State :=
  if (s.bank b).state = .draining ∧ (s.bank b).marker = 0 then
    match (s.bank b).claim with
    | some k => s.grant b k
    | none => s.setBank b { s.bank b with state := (s.bank b).restState }
  else s

theorem markerDown_drainEnds (s : State) (b : Bank) :
    s.markerDown b = (s.setBank b { s.bank b with marker := (s.bank b).marker - 1 }).drainEnds b := by
  unfold State.markerDown State.drainEnds
  dsimp only
  rw [State.bank_setBank_same, State.setBank_setBank] <;> cases (s.bank b).claim <;> rfl

namespace State.InOrder

variable {b : Bank} {w : CurrentOp → Program → Prop} {c : Bool} {y : Option EraseRec} {s : State}

/-- A lookup stage and the unit of one bank change together. -/
theorem setBankStage (h : s.InOrder w c y) {u : BankUnit} {p : Port} {g : Stage}
    (hr : BankRest (s.erase? c) y b u (s.stages.set p g)) (hw : BankWork (s.erase? c) b u s.program)
    (hu : ∀ q, u.claim = some (.program q) → (s.bank b).claim = some (.program q))
    (hp : ∀ x, s.stages.get p = .waitBank x ∨ s.stages.get p = .reading x → bankOf x.addr.seg = b) :
    ((s.setBank b u).setStage p g).InOrder w c y where
  rest b' := by
    change BankRest (s.erase? c) y b' ((s.setBank b u).bank b') (s.stages.set p g)
    rw [State.bank_setBank]
    split
    · rename_i he
      rw [he]
      exact hr
    · rename_i hne
      exact (h.rest b').setStage g fun x hx => by
        rw [hp x hx]
        exact Ne.symm hne
  work b' := by
    change BankWork (s.erase? c) b' ((s.setBank b u).bank b') s.program
    rw [State.bank_setBank]
    split
    · rename_i he
      rw [he]
      exact hw
    · exact h.work b'
  programs := (h.programs.setBank hu).mono rfl rfl (fun _ => id) h.programs.stamping
  record := h.record

/-- The head of the queue starts. -/
theorem startHead (h : s.InOrder w c y) (b : Bank) : (s.startHead b).InOrder w c y := by
  unfold State.startHead
  split
  · rename_i q rest hi hq
    split
    · rename_i hcond
      obtain ⟨x, hx, ha, hb⟩ := (h.rest b).queued q (by rw [hq]; exact List.mem_cons_self)
      rw [hx]
      refine h.setBankStage ((h.rest b).started hi hq hx) { h.work b with flight := fun r hr => ?_ } (fun _ => id) fun z hz => ?_
      · obtain rfl := Option.some.inj hr
        simpa only [Bool.or_eq_true, Bool.and_eq_true, decide_eq_true_eq] using hcond
      · obtain hz | hz := hz
        · obtain rfl := Stage.waitBank.inj (hx.symm.trans hz)
          rw [ha]
          exact hb
        · cases hx.symm.trans hz
    · exact h
  · exact h

/-- A bank whose reads drain and whose marker stands at 0 has no read in flight and no work. -/
theorem drained (h : s.InOrder w c y) (hs : (s.bank b).state = .draining) (hm : (s.bank b).marker = 0) :
    (s.bank b).inFlight = none ∧ s.workless c b := by
  have hw := h.work b
  refine ⟨?_, hw.noProgram (by rw [hs]; exact BankState.noConfusion), hw.noErase (by rw [hs]; exact ⟨BankState.noConfusion, BankState.noConfusion⟩)⟩
  cases hi : (s.bank b).inFlight with
  | none => rfl
  | some r =>
    obtain hr | ⟨-, hr⟩ := hw.flight r hi
    · rw [hs] at hr
      cases hr
    · rw [(h.rest b).notCounted hm hi] at hr
      cases hr

theorem drainEnds (h : s.InOrder w c y) (b : Bank) : (s.drainEnds b).InOrder w c y := by
  unfold State.drainEnds
  split
  · rename_i hd
    obtain ⟨hi, hw⟩ := h.drained hd.1 hd.2
    split
    · rename_i k hk
      exact h.but.grant hk hi hd.2 hw
    · rename_i hk
      exact h.but.closeBank ((h.rest b).setState _) (fun _ => id) (BankWork.rested (fun c hc => by rw [hk] at hc; cases hc) hw.1 hw.2)
  · exact h

/-- What follows a read that has left a bank (R93, R96). -/
theorem readLeft {u : BankUnit} {counted : Bool}
    (h : (s.setBank b { u with marker := u.marker - (if counted = true then 1 else 0) }).InOrder w c y) :
    ((if counted = true then (s.setBank b u).markerDown b else s.setBank b u).startHead b).InOrder w c y := by
  refine startHead ?_ b
  cases counted with
  | true =>
    rw [if_pos rfl, markerDown_drainEnds, State.bank_setBank_same, State.setBank_setBank]
    exact h.drainEnds b
  | false => exact h

/-- A read in flight is done (R93, R96). -/
theorem readDone (h : s.InOrder w c y) (b : Bank) : (s.readDone b).InOrder w c y := by
  cases hi : (s.bank b).inFlight with
  | none =>
    unfold State.readDone
    rw [hi]
    exact h
  | some r =>
    rw [readDone_eq hi]
    exact readLeft (h.but.closeBank ((h.rest b).flightOver hi) (fun _ => id) { h.work b with flight := fun _ hr => by cases hr })

/-- The read of a lookup stage is done; the stage is IDLE from then on. -/
theorem lookupDone (h : s.InOrder w c y) {p : Port} {x : InHand} (hr : s.readInHand p = some x) :
    ((s.setStage p .idle).readDone (bankOf x.addr.seg)).InOrder w c y := by
  unfold State.readInHand at hr
  split at hr
  · rename_i x' hx
    split at hr
    · rename_i r hi
      split at hr
      · rename_i hparty
        obtain rfl := Option.some.inj hr
        have hrest := (h.rest (bankOf x'.addr.seg)).flightOver hi
        have hserved : ∀ z, s.stages.get p = .waitBank z ∨ s.stages.get p = .reading z → bankOf z.addr.seg = bankOf x'.addr.seg := by
          rintro z (hz | hz)
          · cases hx.symm.trans hz
          · rw [Stage.reading.inj (hx.symm.trans hz)]
        have ht := h.setBankStage (p := p) (g := .idle)
          (hrest.setStageOf .idle (fun q hq he => by
            obtain ⟨z, hz, -⟩ := hrest.queued q hq
            rw [he, hx] at hz
            cases hz) fun _ hr => by cases hr)
          { h.work (bankOf x'.addr.seg) with flight := fun _ hr => by cases hr } (fun _ => id) hserved
        rw [readDone_eq (s := s.setStage p .idle) hi]
        exact readLeft (s := s.setStage p .idle) ht
      · cases hr
    · cases hr
  · cases hr

/-- A lookup stage that waits gives its read up, if the read is still queued. -/
theorem readWithdrawn (h : s.InOrder w c y) {p : Port} {x : InHand} (hx : s.stages.get p = .waitBank x) :
    ((s.setStage p .idle).withdrawRead p (bankOf x.addr.seg)).InOrder w c y := by
  have hserved : ∀ z, s.stages.get p = .waitBank z ∨ s.stages.get p = .reading z → bankOf z.addr.seg = bankOf x.addr.seg := by
    rintro z (hz | hz)
    · rw [Stage.waitBank.inj (hx.symm.trans hz)]
    · cases hx.symm.trans hz
  have hrest := h.rest (bankOf x.addr.seg)
  have hwork := h.work (bankOf x.addr.seg)
  unfold State.withdrawRead
  split
  · rename_i q hq
    change (s.bank (bankOf x.addr.seg)).queue.find? (fun q => q.stage = p) = some q at hq
    exact readLeft (s := s.setStage p .idle)
      (h.setBankStage (hrest.withdrawn hq hx) { hwork with } (fun _ => id) hserved)
  · rename_i hq
    change (s.bank (bankOf x.addr.seg)).queue.find? (fun q => q.stage = p) = none at hq
    have hset := h.setBankStage (u := s.bank (bankOf x.addr.seg)) (p := p) (g := .idle)
      (hrest.setStageOf .idle (fun q hm he => by
        have hn := List.find?_eq_none.1 hq q hm
        exact hn (decide_eq_true he)) fun r hr he => by
          obtain ⟨z, hz, -⟩ := hrest.reading r p hr he
          cases hx.symm.trans hz) hwork (fun _ => id) hserved
    rw [State.setBank_self] at hset
    exact hset

/-- A lookup stage that is IDLE requests a read (R92). -/
theorem requestRead (h : s.InOrder w c y) {p : Port} (x : InHand) (a : SlotAddr) (hp : s.stages.get p = .idle) :
    (s.requestRead p x a).InOrder w c y := by
  have hserved : ∀ b z, s.stages.get p = .waitBank z ∨ s.stages.get p = .reading z → bankOf z.addr.seg = b := by
    rintro b z (hz | hz) <;> cases hp.symm.trans hz
  have hrest := h.rest (bankOf a.seg)
  have hwork := h.work (bankOf a.seg)
  unfold State.requestRead
  dsimp only
  split
  · rename_i hc
    simp only [Bool.and_eq_true, List.isEmpty_iff, Option.isNone_iff_eq_none] at hc
    obtain ⟨⟨hread, hq⟩, hi⟩ := hc
    exact h.setBankStage (hrest.readStarts (x := { x with addr := a }) hq hi rfl) { hwork with flight := fun _ _ => .inl hread } (fun _ => id)
      (hserved _)
  · exact h.setBankStage (hrest.readQueued (x := { x with addr := a }) _ hp rfl) { hwork with } (fun _ => id) (hserved _)

/-- A READ SLOT starts in a bank with nothing waiting (R103). -/
theorem readSlotStarts (h : s.InOrder w c y) (a : SlotAddr) (o : Origin) (hr : (s.bank b).readSlotStarts = true) :
    (s.setBank b { s.bank b with inFlight := some ⟨.slot a, .readSlot o, false⟩ }).InOrder w c y := by
  unfold BankUnit.readSlotStarts at hr
  simp only [Bool.and_eq_true, List.isEmpty_iff, Option.isNone_iff_eq_none] at hr
  obtain ⟨⟨hread, -⟩, hi⟩ := hr
  refine h.but.closeBank { h.rest b with reading := fun r p hr hp => ?_, marker := ?_ } (fun _ => id)
    { h.work b with flight := fun _ _ => .inl hread }
  · obtain rfl := Option.some.inj hr
    cases hp
  · have hm := (h.rest b).marker
    rw [hi] at hm
    simpa using hm

/-- The unit leaves RUNNING while a lookup stage reads (R141). -/
theorem leavesRunning (h : s.InOrder w c y) {p : Port} {x : InHand} (hx : s.stages.get p = .reading x) :
    (s.setStage p (.reading { x with leftRunning := true })).InOrder w c y := by
  have hserved : ∀ z, s.stages.get p = .waitBank z ∨ s.stages.get p = .reading z → bankOf z.addr.seg = bankOf x.addr.seg := by
    rintro z (hz | hz)
    · cases hx.symm.trans hz
    · rw [Stage.reading.inj (hx.symm.trans hz)]
  have hrest := h.rest (bankOf x.addr.seg)
  have hset := h.setBankStage (u := s.bank (bankOf x.addr.seg)) (p := p) (g := .reading { x with leftRunning := true })
    { hrest with
      queued := fun q hm => by
        obtain ⟨z, hz, ha, hb⟩ := hrest.queued q hm
        have hne : q.stage ≠ p := fun he => by
          rw [he, hx] at hz
          cases hz
        exact ⟨z, (PerPort.get_set_other _ _ hne).trans hz, ha, hb⟩
      reading := fun r q hr hq => by
        obtain ⟨z, hz, ht, hb⟩ := hrest.reading r q hr hq
        by_cases he : q = p
        · subst he
          obtain rfl := Stage.reading.inj (hx.symm.trans hz)
          exact ⟨_, PerPort.get_set_same .., ht, hb⟩
        · exact ⟨z, (PerPort.get_set_other _ _ he).trans hz, ht, hb⟩ }
    (h.work _) (fun _ => id) hserved
  rw [State.setBank_self] at hset
  exact hset

/-! ## Claims and releases -/

/-- A claim on a bank (R95, R98). -/
theorem makeClaim (h : s.InOrder w c y) {k : Claim} (hk : claimFits (s.erase? c) b k)
    (hn : ∀ p, k = .program p → s.noPrograms ∧ w s.op p) : (s.makeClaim b k).InOrder w c y := by
  have hrest := (h.rest b).claimed hk
  have hwork := h.work b
  have hprog : ∀ x : BankState, (s.setBank b { (s.bank b).claimed k with state := x }).ProgramsOk w := by
    intro x
    by_cases hp : ∃ p, k = .program p
    · obtain ⟨p, rfl⟩ := hp
      exact h.programs.claim (hn p rfl).1 fun q hq => by
        obtain rfl := Claim.program.inj (Option.some.inj hq)
        exact (hn p rfl).2
    · exact h.programs.setBank fun q hq => absurd ⟨q, Option.some.inj hq⟩ hp
  have hbut : (s.setBank b ((s.bank b).claimed k)).InOrderBut b w c y := h.but.setBankOf hrest (hprog (s.bank b).state)
  have held : (s.bank b).state.withholds = true → (s.setBank b ((s.bank b).claimed k)).InOrder w c y := by
    intro hs
    refine hbut.close ?_
    rw [State.bank_setBank_same]
    refine { hwork with flight := fun r hr => ?_, held := fun _ _ => ?_ }
    · obtain ⟨r', hr', -⟩ := Option.map_eq_some_iff.1 hr
      rw [hwork.noFlight hs] at hr'
      cases hr'
    · change (s.bank b).state.readable = false
      revert hs
      cases (s.bank b).state <;> decide
  have serves : (s.bank b).state.withholds = false →
      (if (s.bank b).waiting = 0 then (s.setBank b ((s.bank b).claimed k)).grant b k
       else (s.setBank b { (s.bank b).claimed k with state := .draining }).startHead b).InOrder w c y := by
    intro hs
    have hnw : s.workless c b := by
      refine ⟨hwork.noProgram fun he => ?_, hwork.noErase ⟨fun he => ?_, fun he => ?_⟩⟩ <;> rw [he] at hs <;> cases hs
    split
    · rename_i hw0
      have hi : (s.bank b).inFlight = none := by
        rw [BankUnit.waiting_eq] at hw0
        refine Classical.byContradiction fun hne => ?_
        rw [if_neg hne] at hw0
        omega
      refine hbut.grant ?_ ?_ ?_ hnw
      · rw [State.bank_setBank_same]
        rfl
      · rw [State.bank_setBank_same]
        exact Option.map_eq_none_iff.2 hi
      · rw [State.bank_setBank_same]
        exact hw0
    · refine InOrder.startHead ((h.but.setBankOf (hrest.setState .draining) (hprog .draining)).close ?_) b
      rw [State.bank_setBank_same]
      refine BankWork.draining (fun r hr => ?_) hnw.1 hnw.2
      obtain ⟨r', -, rfl⟩ := Option.map_eq_some_iff.1 hr
      rfl
  unfold State.makeClaim
  split
  · rename_i hs
    exact held (by rw [hs]; rfl)
  · rename_i hs
    exact held (by rw [hs]; rfl)
  · rename_i hs
    exact held (by rw [hs]; rfl)
  · rename_i hs
    exact serves (by rw [hs]; rfl)
  · rename_i hs
    exact serves (by rw [hs]; rfl)
  · rename_i hs
    exact serves (by rw [hs]; rfl)

end State.InOrder

/-- The work of a bank has ended (R97, R98). -/
theorem State.InOrderBut.release {b : Bank} {w : CurrentOp → Program → Prop} {c : Bool} {y : Option EraseRec} {s : State}
    (h : s.InOrderBut b w c y) (hw : s.workless c b)
    (hf : ∀ r, (s.bank b).inFlight = some r → (s.bank b).state.readable = true ∨ r.counted = true)
    (hheld : ∀ k, (s.bank b).claim = some k → (s.bank b).state.readable = false) : (s.release b).InOrder w c y := by
  have hr := h.rest b
  unfold State.release
  split
  · rename_i hk
    refine InOrder.startHead ?_ b
    exact h.closeBank (hr.setState _) (fun _ => id) (BankWork.rested (fun c hc => by rw [hk] at hc; cases hc) hw.1 hw.2)
  · rename_i k hk
    have hcount : ∀ r, (s.bank b).inFlight = some r → r.counted = true := fun r hi =>
      (hf r hi).resolve_left (by rw [hheld k hk]; exact Bool.false_ne_true)
    split
    · rename_i hm
      refine h.grant hk ?_ hm hw
      cases hi : (s.bank b).inFlight with
      | none => rfl
      | some r =>
        have hc := hcount r hi
        rw [hr.notCounted hm hi] at hc
        cases hc
    · refine InOrder.startHead ?_ b
      exact h.closeBank (hr.setState _) (fun _ => id) (BankWork.draining hcount hw.1 hw.2)

end Sys2Proof.Machine
end

section
/-! PROOF. The banks in order, continued: the erase in progress, and the records of the engine beside the banks. -/

namespace Sys2Proof.Machine

open Sys2Proof

/-! ## The records change, the banks stand -/

theorem bank_of_banks {s t : State} (h : t.banks = s.banks) (b : Bank) : t.bank b = s.bank b :=
  congrArg (fun x => PerBank.get x b) h

theorem State.ProgramsOk.of_none {s : State} (h : s.noPrograms) {w : CurrentOp → Program → Prop}
    (hw : ∀ x p, w (.erase x) p → x.step = .stamping) : s.ProgramsOk w where
  issued p hp := by
    obtain hp | ⟨b, hp⟩ := hp
    · cases h.1.symm.trans hp
    · exact absurd hp (h.2 b p)
  single b p hp := absurd hp (h.2 b p)
  stamping := hw

theorem State.ProgramsOk.none {w : CurrentOp → Program → Prop} {s : State} (h : s.ProgramsOk w) (hw : ∀ p, ¬ w s.op p) : s.noPrograms := by
  refine ⟨?_, fun b q hq => hw q (h.issued q (.inr ⟨b, hq⟩))⟩
  cases hp : s.program with
  | none => rfl
  | some p => exact absurd (h.issued p (.inl hp)) (hw p)

/-- The records of the engine change, and the banks agree with the new ones as with the old. -/
theorem State.InOrder.recast {w w' : CurrentOp → Program → Prop} {c c' : Bool} {y y' : Option EraseRec} {s t : State} (h : s.InOrder w c y)
    (hb : t.banks = s.banks) (hst : t.stages = s.stages) (hpr : t.program = s.program) (hp : t.ProgramsOk w')
    (hrec : y' ≠ none → t.suspended = y')
    (hclaim : ∀ b k, claimFits (s.erase? c) b k → claimFits (t.erase? c') b k)
    (hstands : ∀ b, standsIn ((s.erase? c).or y) b = standsIn ((t.erase? c').or y') b)
    (hworks : ∀ b, worksIn (s.erase? c) b → worksIn (t.erase? c') b)
    (hruns : ∀ x', t.erase? c' = some x' → x'.step.atWork = true →
      ∃ x, s.erase? c = some x ∧ x.seg = x'.seg ∧ x.step.atWork = true ∧ (x'.step = .running → x.step = .running)) : t.InOrder w' c' y' where
  rest b := by
    rw [bank_of_banks hb, hst]
    exact { h.rest b with
      claim := fun k hk => hclaim b k ((h.rest b).claim k hk)
      suspended := (h.rest b).suspended.trans (hstands b) }
  work b := by
    rw [bank_of_banks hb, hpr]
    exact { h.work b with
      erasing := fun hs => hworks b ((h.work b).erasing hs)
      running := fun x' hx' hb' ha' => by
        obtain ⟨x, hx, hseg, ha, hrun⟩ := hruns x' hx' ha'
        exact ((h.work b).running x hx (by rw [hseg]; exact hb') ha).imp id fun ⟨hs, hne⟩ => ⟨hs, mt hrun hne⟩ }
  programs := hp
  record := hrec

/-- Nothing changes that the banks are tied to. -/
theorem State.InOrder.same {w w' : CurrentOp → Program → Prop} {c c' : Bool} {y : Option EraseRec} {s t : State} (h : s.InOrder w c y)
    (hb : t.banks = s.banks) (hst : t.stages = s.stages) (hpr : t.program = s.program) (hp : t.ProgramsOk w')
    (hrec : y ≠ none → t.suspended = y) (he : t.erase? c' = s.erase? c) : t.InOrder w' c' y :=
  h.recast hb hst hpr hp hrec (fun _ _ hk => by rw [he]; exact hk) (fun _ => by rw [he]) (fun _ hw => by rw [he]; exact hw)
    fun x' hx' ha => ⟨x', by rw [← he]; exact hx', rfl, ha, id⟩

theorem State.InOrder.noneIssued {w : CurrentOp → Program → Prop} {c : Bool} {y : Option EraseRec} {s : State} (h : s.InOrder w c y)
    (hw : ∀ p, ¬ w s.op p) : s.noPrograms :=
  h.programs.none hw

/-- No program is claimed or in progress: any may be issued. -/
theorem State.InOrder.any {w w' : CurrentOp → Program → Prop} {c : Bool} {y : Option EraseRec} {s : State} (h : s.InOrder w c y)
    (hn : s.noPrograms) (hw : ∀ x p, w' (.erase x) p → x.step = .stamping) : s.InOrder w' c y :=
  h.same rfl rfl rfl (.of_none hn hw) h.record rfl

/-- An erase that is neither at CLAIMED nor at work nor suspended drops out of view, or comes into view. -/
theorem idle_views {x : EraseRec} (hc : x.step ≠ .claimed) (hw : x.step.atWork = false) (hs : x.step ≠ .suspended) (b : Bank) :
    (∀ k, claimFits (some x) b k → claimFits none b k) ∧ standsIn (some x) b = none ∧ ¬ worksIn (some x) b := by
  refine ⟨fun k hk => ?_, standsIn_eq_none fun z hz hzs => ?_, ?_⟩
  · cases k with
    | erase g =>
      obtain ⟨⟨z, hz, hzc, -⟩, -⟩ := hk
      exact absurd (Option.some.inj hz ▸ hzc) hc
    | program p => exact hk
    | resume g => exact hk
    | read t => exact hk
  · exact absurd (Option.some.inj hz ▸ hzs) hs
  · rintro ⟨z, hz, -, ha⟩
    rw [← Option.some.inj hz, hw] at ha
    cases ha

/-! ## Claims of the engine -/

namespace State.InOrder

variable {b : Bank} {w : CurrentOp → Program → Prop} {c : Bool} {y : Option EraseRec} {s : State}

theorem cfgProgram (h : s.InOrder w c y) {p : Program} (hn : s.noPrograms) (hw : w s.op p) (hb : p.bank? = none) (k : CfgBank) :
    ({ s with cfgBank := k, program := some p } : State).InOrder w c y where
  rest := h.rest
  work b' := by
    have hwork := h.work b'
    rw [hn.1] at hwork
    have hne : p.bank? ≠ some b' := by
      rw [hb]
      exact fun hx => by cases hx
    exact { hwork with programming := iff_of_false (mt hwork.programming.1 fun hx => by cases hx) hne }
  programs :=
    { issued := fun q hq => by
        obtain hq | ⟨b', hq⟩ := hq
        · exact Option.some.inj hq ▸ hw
        · exact absurd hq (hn.2 b' q)
      single := fun b' q hq => absurd hq (hn.2 b' q)
      stamping := h.programs.stamping }
  record := h.record

/-- A program claimed (R95, R102). -/
theorem claimProgram (h : s.InOrder w c y) {p : Program} (hn : s.noPrograms) (hw : w s.op p) : (s.claimProgram p).InOrder w c y := by
  have routed : ∀ b, p.bank? = some b → (s.makeClaim b (.program p)).InOrder w c y := fun b hb =>
    h.makeClaim hb fun q hq => Claim.program.inj hq ▸ ⟨hn, hw⟩
  unfold State.claimProgram
  dsimp only
  split
  · rename_i a v hj
    exact routed _ (by unfold Program.bank?; rw [hj])
  · rename_i g n hj
    split
    · rename_i hg
      exact routed _ (by unfold Program.bank?; rw [hj]; exact if_pos hg)
    · rename_i hg
      exact h.cfgProgram hn hw (by unfold Program.bank?; rw [hj]; exact if_neg hg) _
  · rename_i hj
    exact h.cfgProgram hn hw (by unfold Program.bank?; rw [hj]) _
  · rename_i hj
    exact h.cfgProgram hn hw (by unfold Program.bank?; rw [hj]) _

theorem cfgBank (h : s.InOrder w c y) (k : CfgBank) : ({ s with cfgBank := k } : State).InOrder w c y :=
  ⟨h.rest, h.work, ⟨h.programs.issued, h.programs.single, h.programs.stamping⟩, h.record⟩

/-- A read claimed (R95, R99). -/
theorem claimRead (h : s.InOrder w c y) (t : ReadTarget) : (s.claimRead t).InOrder w c y := by
  unfold State.claimRead
  cases t <;>
  · dsimp only
    split
    · exact h.makeClaim trivial fun p hp => by cases hp
    · exact h.cfgBank _

/-- The program in progress has ended: its bank is released (R97). -/
theorem programEnds (h : s.InOrder w c y) {p : Program} (hp : s.program = some p) {w' : CurrentOp → Program → Prop}
    (hw' : ∀ x p, w' (.erase x) p → x.step = .stamping) :
    (({ s with program := none } : State).releaseProgram p.job).InOrder w' c y := by
  have hnone : ({ s with program := none } : State).noPrograms :=
    ⟨rfl, fun b q hq => by
      obtain ⟨hn, -⟩ := h.programs.single b q hq
      rw [hp] at hn
      cases hn⟩
  have others : ∀ b', p.bank? ≠ some b' → BankWork (s.erase? c) b' (s.bank b') none := fun b' hb => by
    have hwork := h.work b'
    exact { hwork with programming := iff_of_false (mt hwork.programming.1 (by rw [hp]; exact hb)) fun hx => by cases hx }
  have route : ∀ b, p.bank? = some b → (({ s with program := none } : State).release b).InOrder w' c y := by
    intro b hb
    have hwork := h.work b
    have hst : (s.bank b).state = .programming := hwork.programming.2 (by rw [hp]; exact hb)
    have hbut : ({ s with program := none } : State).InOrderBut b w' c y :=
      ⟨h.rest, fun b' hne => others b' fun hx => hne (Option.some.inj (hx.symm.trans hb)), .of_none hnone hw', h.record⟩
    refine hbut.release ⟨(fun hx => by cases hx), hwork.noErase (by rw [hst]; exact ⟨BankState.noConfusion, BankState.noConfusion⟩)⟩
      (fun r hr => (hwork.flight r hr).imp id And.right) fun k _ => ?_
    rw [show (({ s with program := none } : State).bank b).state = _ from hst]
    rfl
  have cfg : p.bank? = none → ∀ k, ({ s with cfgBank := k, program := none } : State).InOrder w' c y := fun hb k =>
    InOrder.cfgBank (s := { s with program := none })
      ⟨h.rest, fun b' => others b' (by rw [hb]; exact fun hx => by cases hx), .of_none hnone hw', h.record⟩ k
  unfold State.releaseProgram
  dsimp only
  split
  · rename_i a v hj
    exact route _ (by unfold Program.bank?; rw [hj])
  · rename_i g n hj
    split
    · rename_i hg
      exact route _ (by unfold Program.bank?; rw [hj]; exact if_pos hg)
    · rename_i hg
      exact cfg (by unfold Program.bank?; rw [hj]; exact if_neg hg) _
  · rename_i hj
    exact cfg (by unfold Program.bank?; rw [hj]) _
  · rename_i hj
    exact cfg (by unfold Program.bank?; rw [hj]) _

/-! ## The erase at work -/

/-- The erase of a bank goes on with another step, the bank with the state for it (R91). -/
theorem eraseGoesOn (h : s.InOrder w true none) {x x' : EraseRec} (hop : s.op = .erase x) (hw : x.step.atWork = true)
    (hseg : x'.seg = x.seg) (hw' : x'.step.atWork = true) {st : BankState}
    (hst : st = .eraseRunning ∨ (st = .suspendWait ∧ x'.step ≠ .running)) :
    ((({ s with op := .erase x' } : State)).setBank (bankOf x.seg) { s.bank (bankOf x.seg) with state := st }).InOrder w true none := by
  have he : s.erase? true = some x := erase?_eq_some.2 ⟨rfl, hop⟩
  have atWork_not : ∀ z : EraseRec, z.step.atWork = true → z.step ≠ .claimed ∧ z.step ≠ .suspended ∧ z.step ≠ .stamping := fun z hz => by
    refine ⟨fun hs => ?_, fun hs => ?_, fun hs => ?_⟩ <;> rw [hs] at hz <;> cases hz
  have hn : s.noPrograms := h.noneIssued fun p hp => by
    rw [hop] at hp
    exact (atWork_not x hw).2.2 (h.programs.stamping x p hp)
  have claims : ∀ b k, claimFits (some x) b k → claimFits (some x') b k := fun b k hk => by
    cases k with
    | erase g =>
      obtain ⟨⟨z, hz, hzc, -⟩, -⟩ := hk
      exact absurd (Option.some.inj hz ▸ hzc) (atWork_not x hw).1
    | program p => exact hk
    | resume g => exact hk
    | read t => exact hk
  have stands : ∀ z : EraseRec, z.step.atWork = true → ∀ b, standsIn (some z) b = none := fun z hz b =>
    standsIn_eq_none fun v hv hvs => absurd (Option.some.inj hv ▸ hvs) (atWork_not z hz).2.1
  have rest : ∀ b, BankRest (some x') none b (s.bank b) s.stages := fun b => by
    have hr := h.rest b
    rw [he] at hr
    exact { hr with
      claim := fun k hk => claims b k (hr.claim k hk)
      suspended := (hr.suspended.trans (stands x hw b)).trans (stands x' hw' b).symm }
  have hbut : ({ s with op := .erase x' } : State).InOrderBut (bankOf x.seg) w true none := by
    have hn' : ({ s with op := .erase x' } : State).noPrograms := hn
    refine ⟨rest, fun b hne => ?_, .of_none hn' h.programs.stamping, fun hx => absurd rfl hx⟩
    have hwork := h.work b
    rw [he] at hwork
    have no : ∀ z : EraseRec, z.seg = x.seg → ¬ worksIn (some z) b := by
      rintro z hz ⟨v, hv, hvb, -⟩
      rw [← Option.some.inj hv, hz] at hvb
      exact hne hvb.symm
    exact hwork.elsewhere (by rw [hn.1]; exact fun hx => by cases hx) (by change s.program.bind _ ≠ _; rw [hn.1]; exact fun hx => by cases hx)
      (no x rfl) (no x' hseg)
  have hwork := h.work (bankOf x.seg)
  rw [he] at hwork
  have withholds : (s.bank (bankOf x.seg)).state.withholds = true := by
    obtain hs | ⟨hs, -⟩ := hwork.running x rfl rfl hw <;> rw [hs] <;> rfl
  refine hbut.closeBank ((rest _).setState st) (fun _ => id) ?_
  exact
    { flight := fun r hr => by
        have hnf := hwork.noFlight withholds
        cases hnf.symm.trans hr
      held := fun _ _ => by obtain rfl | ⟨rfl, -⟩ := hst <;> rfl
      programming := iff_of_false (by obtain rfl | ⟨rfl, -⟩ := hst <;> exact BankState.noConfusion) (by
        change s.program.bind _ ≠ _
        rw [hn.1]
        exact fun hx => by cases hx)
      erasing := fun _ => ⟨x', rfl, congrArg bankOf hseg, hw'⟩
      running := fun z hz _ _ => by
        obtain rfl := Option.some.inj hz
        exact hst
      free := fun hs => by obtain rfl | ⟨rfl, -⟩ := hst <;> cases hs
      eraseSuspended := fun hs => by obtain rfl | ⟨rfl, -⟩ := hst <;> cases hs }

end State.InOrder

end Sys2Proof.Machine
end

section
/-! PROOF. The banks in order, continued: an erase that ends, completes, is suspended, and goes on (R69 to R77). -/

namespace Sys2Proof.Machine

open Sys2Proof

/-! ## What leaves the current operation alone -/

theorem op_release_of {s : State} {b : Bank} (h : ∀ k, (s.bank b).claim = some k → ∃ e, claimFits e b k ∧ ∀ x, e = some x → x.step ≠ .claimed) :
    (s.release b).op = s.op := by
  unfold State.release
  split
  · exact op_startHead _ b
  · rename_i k hk
    split
    · obtain ⟨e, hf, he⟩ := h k hk
      cases k with
      | program p => rfl
      | read t => rfl
      | resume g => exact hf.elim
      | erase g =>
        obtain ⟨⟨x, hx, hc, -⟩, -⟩ := hf
        exact absurd hc (he x hx)
    · exact op_startHead _ b

namespace State.InOrder

variable {w : CurrentOp → Program → Prop} {c : Bool} {y : Option EraseRec} {s : State}

/-! ## An erase that ends -/

/-- The claim of a bank is not that of an erase past CLAIMED. -/
theorem claim_of_started {x : EraseRec} (hx : (s.erase? c).or y = some x) (hc : x.step ≠ .claimed) (b : Bank) (k : Claim)
    (hk : claimFits (s.erase? c) b k) : claimFits none b k := by
  cases k with
  | erase g =>
    obtain ⟨⟨z, hz, hzc, -⟩, -⟩ := hk
    rw [hz, Option.some_or] at hx
    exact absurd (Option.some.inj hx ▸ hzc) hc
  | program p => exact hk
  | resume g => exact hk
  | read t => exact hk

/-- The bank of an erase in progress that ends is freed: the erase is out of view from then on (R69, R73, R76, R77). -/
theorem eraseEnds (h : s.InOrder w c y) {x x' : EraseRec} (hx : (s.erase? c).or y = some x) (hseg : x'.seg = x.seg) (hstep : x'.step = x.step)
    {c' : Bool} (hc' : s.erase? c' = none) (hp : x.step = .claimed → s.noPrograms) : (s.freeEraseBank x').InOrder w c' none := by
  have hone : ∀ z, s.erase? c = some z → z = x := fun z hz => by
    rw [hz, Option.some_or] at hx
    exact Option.some.inj hx
  have elsewhere : ∀ b, b ≠ bankOf x.seg → BankRest none none b (s.bank b) s.stages ∧ BankWork none b (s.bank b) s.program := by
    intro b hb
    have hr := h.rest b
    have hw := h.work b
    refine ⟨{ hr with claim := fun k hk => ?_, suspended := ?_ }, { hw with erasing := fun hs => ?_, running := fun z hz => by cases hz }⟩
    · have hf := hr.claim k hk
      cases k with
      | erase g =>
        obtain ⟨⟨z, hz, -, hzb⟩, -⟩ := hf
        rw [hone z hz] at hzb
        exact absurd hzb.symm hb
      | program p => exact hf
      | resume g => exact hf
      | read t => exact hf
    · rw [hr.suspended, hx]
      exact standsIn_eq_none fun z hz _ hzb => hb (by rw [← hzb, ← Option.some.inj hz])
    · obtain ⟨z, hz, hzb, -⟩ := hw.erasing hs
      rw [hone z hz] at hzb
      exact absurd hzb.symm hb
  have hr := h.rest (bankOf x.seg)
  have hw := h.work (bankOf x.seg)
  have but : ∀ u : BankUnit, BankRest none none (bankOf x.seg) u s.stages →
      (∀ p, u.claim = some (.program p) → (s.bank (bankOf x.seg)).claim = some (.program p)) →
      (s.setBank (bankOf x.seg) u).InOrderBut (bankOf x.seg) w c' none := by
    intro u hu hcl
    have he : (s.setBank (bankOf x.seg) u).erase? c' = none := hc'
    refine ⟨fun b => ?_, fun b hb => ?_, h.programs.setBank hcl, fun hn => absurd rfl hn⟩
    · rw [he, State.bank_setBank]
      split
      · rename_i hb
        rw [hb]
        exact hu
      · rename_i hb
        exact (elsewhere b hb).1
    · rw [he, State.bank_setBank_other _ _ hb]
      exact (elsewhere b hb).2
  have out : ∀ u : BankUnit, (s.setBank (bankOf x.seg) u).erase? c' = none := fun _ => hc'
  unfold State.freeEraseBank
  rw [hseg, hstep]
  split
  · rename_i hst
    have hwork : BankWork none (bankOf x.seg) { s.bank (bankOf x.seg) with claim := none } s.program :=
      { hw with
        held := fun k hk => by cases hk
        erasing := fun hs => by
          obtain ⟨z, hz, -, ha⟩ := hw.erasing hs
          rw [hone z hz, hst] at ha
          cases ha
        running := fun z hz => by cases hz }
    have hb := but { s.bank (bankOf x.seg) with claim := none }
      { hr.noClaim (s.bank (bankOf x.seg)).state with
        claim := fun k hk => by cases hk
        suspended := by
          refine hr.suspended.trans ((standsIn_eq_none fun z hz hzs => ?_).trans rfl)
          rw [hx] at hz
          rw [← Option.some.inj hz, hst] at hzs
          cases hzs } (fun p hq => by cases hq)
    unfold State.withdrawClaim
    dsimp only
    split
    · refine hb.release ⟨?_, ?_⟩ ?_ ?_
      · change s.program.bind _ ≠ _
        rw [(hp hst).1]
        exact fun hq => by cases hq
      · rw [out]
        rintro ⟨z, hz, -⟩
        cases hz
      · rw [State.bank_setBank_same]
        exact fun r hi => (hw.flight r hi).imp id And.right
      · rw [State.bank_setBank_same]
        exact fun k hk => by cases hk
    · refine hb.close ?_
      rw [out, State.bank_setBank_same]
      exact hwork
  · rename_i hst
    have hb := but { s.bank (bankOf x.seg) with suspended := none }
      { hr with
        claim := fun k hk => claim_of_started hx hst _ k (hr.claim k hk)
        suspended := rfl } (fun p hq => hq)
    have stays : (s.bank (bankOf x.seg)).state = .draining ∨ (s.bank (bankOf x.seg)).state = .programming →
        (s.setBank (bankOf x.seg) { s.bank (bankOf x.seg) with suspended := none }).InOrder w c' none := fun hs => by
      refine hb.close ?_
      rw [out, State.bank_setBank_same]
      exact { hw with
        erasing := fun hs' => by
          change (s.bank (bankOf x.seg)).state = _ ∨ (s.bank (bankOf x.seg)).state = _ at hs'
          obtain hs | hs := hs <;> rw [hs] at hs' <;> obtain hs' | hs' := hs' <;> cases hs'
        running := fun z hz => by cases hz
        free := fun _ => rfl
        eraseSuspended := fun hs' => by
          change (s.bank (bankOf x.seg)).state = _ at hs'
          obtain hs | hs := hs <;> rw [hs] at hs' <;> cases hs' }
    unfold State.releaseErase
    dsimp only
    rw [State.bank_setBank_same]
    split
    · rename_i hs
      exact stays (.inl hs)
    · rename_i hs
      exact stays (.inr hs)
    · rename_i hd hnp
      refine hb.release ⟨hw.noProgram hnp, ?_⟩ ?_ ?_
      · rw [out]
        rintro ⟨z, hz, -⟩
        cases hz
      · rw [State.bank_setBank_same]
        exact fun r hi => (hw.flight r hi).imp id And.right
      · rw [State.bank_setBank_same]
        exact hw.held

/-! ## The completions of an erase -/

/-- The erase at work in a bank ends its work there with a step neither at CLAIMED nor at work (R70, R73). -/
theorem eraseRests (h : s.InOrder w true none) {x x' : EraseRec} (hop : s.op = .erase x) (hw : x.step.atWork = true) (hseg : x'.seg = x.seg)
    (hw' : x'.step.atWork = false) :
    ((({ s with op := .erase x' } : State).setBank (bankOf x.seg)
      { s.bank (bankOf x.seg) with suspended := standsIn (some x') (bankOf x.seg) }).release (bankOf x.seg)).InOrder w true none ∧
    ((({ s with op := .erase x' } : State).setBank (bankOf x.seg)
      { s.bank (bankOf x.seg) with suspended := standsIn (some x') (bankOf x.seg) }).release (bankOf x.seg)).op = .erase x' := by
  have he : s.erase? true = some x := erase?_eq_some.2 ⟨rfl, hop⟩
  have started : x.step ≠ .claimed ∧ x.step ≠ .suspended ∧ x.step ≠ .stamping := by
    refine ⟨fun hs => ?_, fun hs => ?_, fun hs => ?_⟩ <;> rw [hs] at hw <;> cases hw
  have hn : s.noPrograms := h.noneIssued fun p hp => by
    rw [hop] at hp
    exact started.2.2 (h.programs.stamping x p hp)
  have hn' : (({ s with op := .erase x' } : State).setBank (bankOf x.seg)
      { s.bank (bankOf x.seg) with suspended := standsIn (some x') (bankOf x.seg) }).noPrograms := by
    refine ⟨hn.1, fun b q hq => ?_⟩
    rw [State.bank_setBank] at hq
    split at hq
    · exact hn.2 _ q hq
    · exact hn.2 b q hq
  have claims : ∀ b k, claimFits (some x) b k → claimFits none b k := fun b k hk =>
    claim_of_started (y := none) (by rw [he]; rfl) started.1 b k (by rw [he]; exact hk)
  have up : ∀ b k, claimFits none b k → claimFits (some x') b k := fun b k hk => by
    cases k with
    | erase g =>
      obtain ⟨⟨z, hz, -⟩, -⟩ := hk
      cases hz
    | program p => exact hk
    | resume g => exact hk
    | read t => exact hk
  have noWork : ∀ b, ¬ worksIn (some x') b := by
    rintro b ⟨z, hz, -, ha⟩
    rw [← Option.some.inj hz, hw'] at ha
    cases ha
  have hbut : (({ s with op := .erase x' } : State).setBank (bankOf x.seg)
      { s.bank (bankOf x.seg) with suspended := standsIn (some x') (bankOf x.seg) }).InOrderBut (bankOf x.seg) w true none := by
    refine ⟨fun b => ?_, fun b hb => ?_, .of_none hn' h.programs.stamping, fun hx => absurd rfl hx⟩
    · have hr := h.rest b
      rw [he] at hr
      rw [State.bank_setBank]
      split
      · rename_i hb
        subst hb
        exact { hr with
          claim := fun k hk => up _ k (claims _ k (hr.claim k hk))
          suspended := rfl }
      · rename_i hb
        exact { hr with
          claim := fun k hk => up _ k (claims _ k (hr.claim k hk))
          suspended := by
            refine hr.suspended.trans ((standsIn_eq_none fun z hz _ hzb => ?_).trans (standsIn_eq_none fun z hz _ hzb => ?_).symm)
            · rw [← Option.some.inj hz] at hzb
              exact hb hzb.symm
            · rw [← Option.some.inj hz, hseg] at hzb
              exact hb hzb.symm }
    · have hwork := h.work b
      rw [he] at hwork
      rw [State.bank_setBank_other _ _ hb]
      exact hwork.elsewhere (by rw [hn.1]; exact fun hx => by cases hx) (by change s.program.bind _ ≠ _; rw [hn.1]; exact fun hx => by cases hx)
        (by
          rintro ⟨z, hz, hzb, -⟩
          rw [← Option.some.inj hz] at hzb
          exact hb hzb.symm) (noWork b)
  have hwork := h.work (bankOf x.seg)
  rw [he] at hwork
  refine ⟨hbut.release ⟨?_, noWork _⟩ ?_ ?_, op_release_of fun k hk => ⟨none, ?_, fun z hz => by cases hz⟩⟩
  · change s.program.bind _ ≠ _
    rw [hn.1]
    exact fun hx => by cases hx
  · rw [State.bank_setBank_same]
    exact fun r hi => (hwork.flight r hi).imp id And.right
  · rw [State.bank_setBank_same]
    exact hwork.held
  · rw [State.bank_setBank_same] at hk
    have hr := h.rest (bankOf x.seg)
    rw [he] at hr
    exact claims _ k (hr.claim k hk)

/-! ## The erase examined -/

/-- The engine looks again at the reasons to suspend (R73). -/
theorem lookAgain (h : s.InOrder w true none) {x e : EraseRec} (hop : s.op = .erase x) (hseg : e.seg = x.seg) (hw : x.step.atWork = true) :
    (s.lookAgain e).InOrder w true none := by
  unfold State.lookAgain
  dsimp only
  rw [hseg]
  split
  · rw [mapErase_of_erase hop]
    exact h.eraseGoesOn (x' := { x with step := .suspending }) hop hw rfl rfl (.inr ⟨rfl, EraseStep.noConfusion⟩)
  · rw [mapErase_of_erase hop]
    exact h.eraseGoesOn (x' := { x with step := .running }) hop hw rfl rfl (.inl rfl)

theorem examineReasons (h : s.InOrder w true none) : s.examineReasons.InOrder w true none := by
  unfold State.examineReasons
  split
  · rename_i x hop
    split
    · rename_i hr
      have hw : x.step.atWork = true := by rw [hr.1]; rfl
      have h1 := h.eraseGoesOn (x' := { x with step := .waiting }) hop hw rfl rfl (.inr ⟨rfl, EraseStep.noConfusion⟩)
      unfold State.reasonAppears
      dsimp only
      rw [mapErase_of_erase hop]
      split
      · exact h1
      · exact h1.lookAgain (x := { x with step := .waiting }) (e := { x with step := .waiting }) rfl rfl rfl
    · exact h
  · exact h

/-- A SUSPENDED erase is resumed in a bank without reads (R75). -/
theorem examineResume (h : s.InOrder w true none) : s.examineResume.InOrder w true none := by
  unfold State.examineResume
  split
  · rename_i x hop
    split
    · rename_i hr
      obtain ⟨hst, hall⟩ := hr
      have he : s.erase? true = some x := erase?_eq_some.2 ⟨rfl, hop⟩
      have hn : s.noPrograms := h.noneIssued fun p hp => by
        rw [hop] at hp
        have hs := h.programs.stamping x p hp
        rw [hst] at hs
        cases hs
      have hwork := h.work (bankOf x.seg)
      have hrest := h.rest (bankOf x.seg)
      rw [he] at hwork hrest
      have notWorking : ∀ b, ¬ worksIn (some x) b := by
        rintro b ⟨z, hz, -, ha⟩
        rw [← Option.some.inj hz, hst] at ha
        cases ha
      have serves : (s.bank (bankOf x.seg)).state.withholds = false := by
        cases hs : (s.bank (bankOf x.seg)).state with
        | programming =>
          have hp := hwork.programming.1 hs
          rw [hn.1] at hp
          cases hp
        | eraseRunning => exact absurd (hwork.erasing (.inl hs)) (notWorking _)
        | suspendWait => exact absurd (hwork.erasing (.inr hs)) (notWorking _)
        | free => rfl
        | draining => rfl
        | eraseSuspended => rfl
      unfold State.resumeAllowed at hall
      simp only [Bool.and_eq_true, List.isEmpty_iff, Option.isNone_iff_eq_none] at hall
      obtain ⟨⟨⟨hq, hi⟩, -⟩, -⟩ := hall
      rw [makeClaim_free _ serves hq hi]
      unfold State.granted
      dsimp only
      rw [mapErase_of_erase (e := x) (by exact hop)]
      have he' : ({ (s.setBank (bankOf x.seg) { s.bank (bankOf x.seg) with state := .eraseRunning, claim := none, suspended := none, marker := 0 })
          with op := .erase { x with step := .running, runTimer := true } } : State).erase? true = some { x with step := .running, runTimer := true } := rfl
      have hn' : ({ (s.setBank (bankOf x.seg) { s.bank (bankOf x.seg) with state := .eraseRunning, claim := none, suspended := none, marker := 0 })
          with op := .erase { x with step := .running, runTimer := true } } : State).noPrograms := by
        refine ⟨hn.1, fun b q hq => ?_⟩
        change ((s.setBank _ _).bank b).claim = _ at hq
        rw [State.bank_setBank] at hq
        split at hq
        · cases hq
        · exact hn.2 b q hq
      refine ⟨fun b => ?_, fun b => ?_, .of_none hn' h.programs.stamping, fun hx => absurd rfl hx⟩
      · rw [he']
        change BankRest _ _ b ((s.setBank _ _).bank b) s.stages
        rw [State.bank_setBank]
        split
        · rename_i hb
          subst hb
          exact
            { nodup := hrest.nodup
              queued := hrest.queued
              reading := hrest.reading
              marker := by simp [hq, hi]
              claim := fun k hk => by cases hk
              suspended := (standsIn_eq_none fun z hz hzs => by rw [← Option.some.inj hz] at hzs; cases hzs).symm }
        · rename_i hb
          have hr := h.rest b
          rw [he] at hr
          exact hr.elsewhere rfl (Ne.symm hb)
      · rw [he']
        change BankWork _ b ((s.setBank _ _).bank b) s.program
        have noProg : s.program.bind Program.bank? ≠ some b := by
          rw [hn.1]
          exact fun hx => by cases hx
        rw [State.bank_setBank]
        split
        · rename_i hb
          subst hb
          exact
            { flight := fun r hr => by cases hi.symm.trans hr
              held := fun k hk => by cases hk
              programming := iff_of_false BankState.noConfusion noProg
              erasing := fun _ => ⟨_, rfl, rfl, rfl⟩
              running := fun z hz _ _ => .inl rfl
              free := fun hs => by cases hs
              eraseSuspended := fun hs => by cases hs }
        · rename_i hb
          have hwb := h.work b
          rw [he] at hwb
          exact hwb.elsewhere noProg noProg (notWorking b) (by
            rintro ⟨z, hz, hzb, -⟩
            rw [← Option.some.inj hz] at hzb
            exact hb hzb.symm)
    · exact h
  · exact h

end State.InOrder

end Sys2Proof.Machine
end

section
/-! PROOF. The banks stay in order (R90 to R98, R102): the rules of the engine for them. -/

namespace Sys2Proof.Machine

open Sys2Proof

/-- The programs that an operation issues over the segment values of a state. -/
def State.issuesAt (s : State) (x : CurrentOp) (p : Program) : Prop :=
  ({ s with op := x } : State).issues p = true

theorem issuesAt_stamping {s : State} (x : EraseRec) (p : Program) (h : s.issuesAt (.erase x) p) : x.step = .stamping := by
  unfold State.issuesAt State.issues at h
  simp only [Bool.and_eq_true, decide_eq_true_eq] at h
  exact h.1

theorem issuesAt_of_segs {s t : State} (h : t.segs = s.segs) : t.issuesAt = s.issuesAt := by
  funext x p
  unfold State.issuesAt State.issues State.erasesOf State.seg
  rw [show ({ t with op := x } : State).segs = ({ s with op := x } : State).segs from h]

/-- The suspended-erase record stands at SUSPENDED (R108). -/
def State.standing (s : State) : Prop :=
  ∀ x, s.suspended = some x → x.step = .suspended

/-- The banks are in order with the current operation. -/
structure State.AtWork (s : State) : Prop where
  order : s.InOrder s.issuesAt true s.suspended
  standing : s.standing
  beside : s.suspended = none ∨ s.op.besideErase = true

/-- The engine is free, with the banks in order. -/
structure State.AtEase (a : Bool) (s : State) : Prop where
  order : s.InOrder (fun _ _ => False) false s.suspended
  standing : s.standing
  alone : a = true → s.suspended = none

theorem noStamping (x : EraseRec) (p : Program) (h : (fun (_ : CurrentOp) (_ : Program) => False) (.erase x) p) : x.step = .stamping := h.elim

namespace State.AtEase

variable {a : Bool} {s t : State}

theorem noPrograms (h : s.AtEase a) : s.noPrograms := h.order.noneIssued fun _ => id

/-- The banks, the lookup stages, the program in progress and the suspended-erase record stand. -/
theorem of_fields (h : s.AtEase a) (hb : t.banks = s.banks) (hst : t.stages = s.stages) (hp : t.program = s.program)
    (hs : t.suspended = s.suspended) : t.AtEase a where
  order := by
    rw [hs]
    have hn : t.noPrograms := ⟨hp.trans h.noPrograms.1, fun b q hq => h.noPrograms.2 b q (by rw [← bank_of_banks hb]; exact hq)⟩
    exact h.order.same hb hst hp (.of_none hn noStamping) (fun hy => hs.trans (h.order.record hy)) rfl
  standing := by
    unfold State.standing
    rw [hs]
    exact h.standing
  alone ha := hs.trans (h.alone ha)

/-- The engine takes up an operation other than an erase. -/
theorem takes (h : s.AtEase a) {x : CurrentOp} (hx : ∀ e, x ≠ .erase e) (hy : s.suspended = none ∨ x.besideErase = true) :
    ({ s with op := x } : State).AtWork where
  order := by
    have hn : ({ s with op := x } : State).noPrograms := h.noPrograms
    exact h.order.same (t := { s with op := x }) rfl rfl rfl (.of_none hn issuesAt_stamping) h.order.record
      (erase?_of_noErase (s := { s with op := x }) hx true)
  standing := h.standing
  beside := hy

theorem fits_beside (h : s.AtEase a) {o : Option Origin} {x : CurrentOp} (hx : x.fits a o) :
    (∀ e, x ≠ .erase e) ∧ (s.suspended = none ∨ x.besideErase = true) := by
  refine ⟨fun e he => ?_, ?_⟩
  · rw [he] at hx
    exact hx
  · cases x with
    | idle => exact .inr rfl
    | commit b => exact .inr rfl
    | configWrite w => exact .inr rfl
    | erase e => exact hx.elim
    | mount m => exact .inl (h.alone hx)
    | reclaim r => exact .inl (h.alone hx.1)
    | restart r => exact .inl (h.alone hx.1)

theorem readDone (h : s.AtEase a) (ho : t.InOrder (fun _ _ => False) false s.suspended) (hs : t.suspended = s.suspended) : t.AtEase a where
  order := by
    rw [hs]
    exact ho
  standing := by
    unfold State.standing
    rw [hs]
    exact h.standing
  alone ha := hs.trans (h.alone ha)

end State.AtEase

namespace State.AtWork

variable {s t : State}

/-- An operation of the banks keeps them in order. -/
theorem of_jobs (h : s.AtWork) (ho : t.InOrder t.issuesAt true s.suspended) (hj : SameJobs s t) : t.AtWork := by
  have hs : t.suspended = s.suspended := by
    by_cases hn : s.suspended = none
    · rw [hn]
      exact hj.suspended_none hn
    · exact ho.record hn
  refine ⟨?_, ?_, ?_⟩
  · rw [hs]
    exact ho
  · unfold State.standing
    rw [hs]
    exact h.standing
  · rw [hs]
    refine h.beside.imp id fun hb => ?_
    rw [← CurrentOp.besideErase_bare, hj.op, CurrentOp.besideErase_bare]
    exact hb

theorem of_order (h : s.AtWork) (ho : t.InOrder s.issuesAt true s.suspended) (hsegs : t.segs = s.segs) (hj : SameJobs s t) : t.AtWork :=
  h.of_jobs (by rw [issuesAt_of_segs hsegs]; exact ho) hj

/-- Nothing changes that the banks are tied to. -/
theorem of_fields (h : s.AtWork) (hb : t.banks = s.banks) (hst : t.stages = s.stages) (hp : t.program = s.program) (ho : t.op = s.op)
    (hs : t.suspended = s.suspended) (hsegs : t.segs = s.segs) : t.AtWork :=
  h.of_order (h.order.same hb hst hp (h.order.programs.mono hb hp (fun _ => by rw [ho]; exact id) issuesAt_stamping)
    (fun hy => hs.trans (h.order.record hy)) (erase?_of_op ho true)) hsegs (.of_eq ho hs)

theorem program_issued (h : s.AtWork) {p : Program} (hp : s.program = some p) : s.issues p = true :=
  h.order.programs.issued p (.inl hp)

/-- The engine is free once nothing that it issued is under way. -/
theorem atEase (h : s.AtWork) (hn : s.noPrograms) (he : s.noErase) {a : Bool} (ha : a = true → s.suspended = none) : s.AtEase a where
  order := h.order.same rfl rfl rfl (.of_none hn noStamping) h.order.record (erase?_of_noErase he true).symm
  standing := h.standing
  alone := ha

theorem noPrograms (h : s.AtWork) (hi : ∀ p, s.issues p = false) : s.noPrograms :=
  h.order.noneIssued fun p hp => by
    exact absurd ((hi p).symm.trans hp) Bool.false_ne_true

/-- Beside the current erase none is suspended. -/
theorem current (h : s.AtWork) {e : EraseRec} (he : s.op = .erase e) : s.suspended = none :=
  h.beside.resolve_right (by rw [he]; exact Bool.false_ne_true)

theorem alone (h : s.AtWork) (ha : s.op.alone = true) : s.suspended = none :=
  h.beside.resolve_right fun hb => CurrentOp.not_alone_of_beside hb ha

theorem ordered_erase (h : s.AtWork) {e : EraseRec} (he : s.op = .erase e) : s.InOrder s.issuesAt true none := by
  have ho := h.order
  rw [h.current he] at ho
  exact ho

theorem noPrograms_of_erase (h : s.AtWork) {e : EraseRec} (he : s.op = .erase e) (hs : e.step ≠ .stamping) : s.noPrograms :=
  h.noPrograms fun p => by
    unfold State.issues
    rw [he]
    simp [hs]

/-- No program is under way and no erase is suspended. -/
theorem of_none {w : CurrentOp → Program → Prop} (ho : t.InOrder w true none) (hn : t.noPrograms)
    (hs : t.suspended = none) : t.AtWork where
  order := by
    rw [hs]
    exact ho.any hn issuesAt_stamping
  standing x hx := by
    rw [hs] at hx
    cases hx
  beside := .inl hs

end State.AtWork

theorem inOrder_reset (s : State) (x : OpState) {w : CurrentOp → Program → Prop} (hw : ∀ x p, w (.erase x) p → x.step = .stamping) :
    (s.volatileReset x).InOrder w true none := by
  have hbank : ∀ b, (s.volatileReset x).bank b = BankUnit.reset := fun b => by cases b <;> rfl
  refine ⟨fun b => ?_, fun b => ?_, .of_none ⟨rfl, fun b q hq => ?_⟩ hw, fun hy => absurd rfl hy⟩
  · rw [hbank]
    exact
      { nodup := List.nodup_nil
        queued := fun q hq => by cases hq
        reading := fun r p hr => by cases hr
        marker := rfl
        claim := fun k hk => by cases hk
        suspended := rfl }
  · rw [hbank]
    exact
      { flight := fun r hr => by cases hr
        held := fun k hk => by cases hk
        programming := iff_of_false BankState.noConfusion fun hx => by cases hx
        erasing := fun hs => by obtain hs | hs := hs <;> cases hs
        running := fun z hz => by cases hz
        free := fun _ => rfl
        eraseSuspended := fun hs => by cases hs }
  · rw [hbank] at hq
    cases hq

theorem atWork_reset (s : State) (x : OpState) : (s.volatileReset x).AtWork :=
  ⟨inOrder_reset s x issuesAt_stamping, (fun _ hy => by cases hy), .inl rfl⟩

/-! ## The erase in progress -/

theorem noPrograms_of_order {w : CurrentOp → Program → Prop} {c : Bool} {y : Option EraseRec} {s : State} (h : s.InOrder w c y)
    (hw : ∀ x p, ¬ w x p) : s.noPrograms :=
  h.noneIssued (hw s.op)

/-- An erase begins (R67). -/
theorem atWork_begun {s : State} (h : s.AtEase true) (e : EraseRec) (hst : e.step = .claimed) :
    (({ s with op := .erase e } : State).makeClaim (bankOf e.seg) (.erase e.seg)).AtWork := by
  have hs := h.alone rfl
  have ho := h.order
  rw [hs] at ho
  have hn : ({ s with op := .erase e } : State).noPrograms := h.noPrograms
  have he : ({ s with op := .erase e } : State).erase? true = some e := rfl
  have h1 : ({ s with op := .erase e } : State).InOrder (fun _ _ => False) true none := by
    refine ho.recast rfl rfl rfl (.of_none hn noStamping) (fun hy => absurd rfl hy) (fun b k hk => ?_) (fun b => ?_) (fun b hw => ?_)
      fun x hx ha => ?_
    · cases k with
      | erase g =>
        obtain ⟨⟨z, hz, -⟩, -⟩ := hk
        cases hz
      | program p => exact hk
      | resume g => exact hk
      | read t => exact hk
    · rw [he]
      refine (standsIn_eq_none fun z hz hzs => ?_).symm
      rw [← Option.some.inj hz, hst] at hzs
      cases hzs
    · obtain ⟨z, hz, -⟩ := hw
      cases hz
    · rw [he] at hx
      rw [← Option.some.inj hx, hst] at ha
      cases ha
  have h2 := h1.makeClaim (b := bankOf e.seg) (k := .erase e.seg) (by rw [he]; exact ⟨⟨e, rfl, hst, rfl⟩, rfl⟩) fun p hp => by cases hp
  exact .of_none h2 (noPrograms_of_order h2 fun _ _ => id)
    (((sameJobs_stable _).makeClaim _ _ (.refl _)).suspended_none hs)

/-- A suspended erase comes back (R112). -/
theorem atWork_resumed {s : State} (h : s.AtWork) {e : EraseRec} (hi : s.op = .idle) (hs : s.suspended = some e) :
    ({ s with op := .erase e, suspended := none } : State).AtWork := by
  have hst := h.standing e hs
  have hn : ({ s with op := .erase e, suspended := none } : State).noPrograms := h.noPrograms (issues_of_idle hi)
  have hnone : s.erase? true = none := erase?_of_noErase (fun x hx => by rw [hi] at hx; cases hx) true
  have he : ({ s with op := .erase e, suspended := none } : State).erase? true = some e := rfl
  have ho := h.order
  rw [hs] at ho
  refine .of_none (w := fun _ _ => False) (ho.recast rfl rfl rfl (.of_none hn noStamping) (fun hy => absurd rfl hy) (fun b k hk => ?_)
    (fun b => ?_) (fun b hw => ?_) fun x hx ha => ?_) hn rfl
  · rw [hnone] at hk
    cases k with
    | erase g =>
      obtain ⟨⟨z, hz, -⟩, -⟩ := hk
      cases hz
    | program p => exact hk
    | resume g => exact hk
    | read t => exact hk
  · rw [hnone, he]
    rfl
  · rw [hnone] at hw
    obtain ⟨z, hz, -⟩ := hw
    cases hz
  · rw [he] at hx
    rw [← Option.some.inj hx, hst] at ha
    cases ha

/-- The current erase, SUSPENDED, makes way for a COMMIT or CONFIG_WRITE (R108). -/
theorem atEase_suspended {s : State} (h : s.AtWork) {e : EraseRec} (hop : s.op = .erase e) (hst : e.step = .suspended) :
    ({ s with suspended := some e, op := .idle } : State).AtEase false := by
  have hn : ({ s with suspended := some e, op := .idle } : State).noPrograms :=
    h.noPrograms_of_erase hop (by rw [hst]; exact EraseStep.noConfusion)
  have he : s.erase? true = some e := erase?_eq_some.2 ⟨rfl, hop⟩
  refine ⟨(h.ordered_erase hop).recast rfl rfl rfl (.of_none hn noStamping) (fun _ => rfl) (fun b k hk => ?_) (fun b => ?_) (fun b hw => ?_)
    fun x hx => (by cases hx), fun x hx => Option.some.inj hx ▸ hst, fun ha => by cases ha⟩
  · exact State.InOrder.claim_of_started (y := none) (by rw [he]; rfl) (by rw [hst]; exact EraseStep.noConfusion) b k hk
  · rw [he]
    rfl
  · rw [he] at hw
    obtain ⟨z, hz, -, ha⟩ := hw
    rw [← Option.some.inj hz, hst] at ha
    cases ha

/-- An erase record with the same segment and step. -/
theorem claimFits_same {e e' : EraseRec} (hseg : e'.seg = e.seg) (hstep : e'.step = e.step) (b : Bank) :
    (∀ k, claimFits (some e) b k → claimFits (some e') b k) ∧ standsIn (some e') b = standsIn (some e) b ∧
      (worksIn (some e) b → worksIn (some e') b) := by
  refine ⟨fun k hk => ?_, ?_, ?_⟩
  · cases k with
    | erase g =>
      obtain ⟨⟨z, hz, hc, hb⟩, hg⟩ := hk
      obtain rfl := Option.some.inj hz
      exact ⟨⟨e', rfl, hstep.trans hc, by rw [hseg]; exact hb⟩, hg⟩
    | program p => exact hk
    | resume g => exact hk
    | read t => exact hk
  · unfold standsIn
    dsimp only
    rw [hseg, hstep]
  · rintro ⟨z, hz, hb, ha⟩
    obtain rfl := Option.some.inj hz
    exact ⟨e', rfl, by rw [hseg]; exact hb, by rw [hstep]; exact ha⟩

/-- The record of the erase in progress changes, but for its segment and step. -/
theorem atWork_mapErase {s : State} (h : s.AtWork) {f : EraseRec → EraseRec} (hseg : ∀ e, (f e).seg = e.seg) (hstep : ∀ e, (f e).step = e.step) :
    (s.mapErase f).AtWork := by
  by_cases hn : s.noErase
  · rw [mapErase_of_noErase f hn]
    have hnone := erase?_of_noErase hn true
    have hst : ∀ b, standsIn (s.suspended.map f) b = standsIn s.suspended b := fun b => by
      cases hs : s.suspended with
      | none => rfl
      | some e => exact (claimFits_same (hseg e) (hstep e) b).2.1
    refine ⟨h.order.recast rfl rfl rfl (h.order.programs.mono rfl rfl (fun _ => id) issuesAt_stamping) (fun _ => rfl) (fun b k hk => hk)
      (fun b => ?_) (fun b hw => hw) (fun x hx ha => ⟨x, hx, rfl, ha, id⟩), fun x hx => ?_, h.beside.imp (fun hs => ?_) id⟩
    · change standsIn ((s.erase? true).or s.suspended) b = standsIn ((s.erase? true).or (s.suspended.map f)) b
      rw [hnone]
      exact (hst b).symm
    · obtain ⟨e, he, rfl⟩ := Option.map_eq_some_iff.1 hx
      exact (hstep e).trans (h.standing e he)
    · exact congrArg (Option.map f) hs
  · obtain ⟨e, hop⟩ := erase_of_not_noErase hn
    rw [mapErase_of_erase hop]
    have hs := h.current hop
    have he : s.erase? true = some e := erase?_eq_some.2 ⟨rfl, hop⟩
    have he' : ({ s with op := .erase (f e) } : State).erase? true = some (f e) := rfl
    refine ⟨h.order.recast rfl rfl rfl (h.order.programs.mono rfl rfl (fun p hp => ?_) issuesAt_stamping) h.order.record (fun b k hk => ?_)
      (fun b => ?_) (fun b hw => ?_) fun x hx ha => ?_, h.standing, .inl hs⟩
    · rw [hop] at hp
      unfold State.issuesAt State.issues State.erasesOf State.seg at hp ⊢
      dsimp only at hp ⊢
      rw [hseg, hstep]
      exact hp
    · rw [he] at hk
      exact (claimFits_same (hseg e) (hstep e) b).1 k hk
    · rw [he, he', hs]
      exact (claimFits_same (hseg e) (hstep e) b).2.1.symm
    · rw [he] at hw
      exact (claimFits_same (hseg e) (hstep e) b).2.2 hw
    · rw [he'] at hx
      obtain rfl := Option.some.inj hx
      exact ⟨e, he, (hseg e).symm, by rw [← hstep]; exact ha, fun hr => (hstep e).symm.trans hr⟩

/-- The erase at work is stopping (R69, R77). -/
theorem atWork_stopping {s : State} (h : s.AtWork) {e e' : EraseRec} (hop : s.op = .erase e) (hw : e.step.atWork = true) (hseg : e'.seg = e.seg)
    (hw' : e'.step.atWork = true) (hr : e'.step ≠ .running) : ({ s with op := .erase e' } : State).AtWork := by
  have notAtWork : ∀ {z : EraseRec}, z.step.atWork = true → z.step ≠ .claimed ∧ z.step ≠ .suspended ∧ z.step ≠ .stamping := fun hz => by
    refine ⟨fun hs => ?_, fun hs => ?_, fun hs => ?_⟩ <;> rw [hs] at hz <;> cases hz
  have hs := h.current hop
  have he : s.erase? true = some e := erase?_eq_some.2 ⟨rfl, hop⟩
  have he' : ({ s with op := .erase e' } : State).erase? true = some e' := rfl
  have hn : ({ s with op := .erase e' } : State).noPrograms := h.noPrograms_of_erase hop (notAtWork hw).2.2
  refine .of_none (w := fun _ _ => False) ((h.ordered_erase hop).recast rfl rfl rfl (.of_none hn noStamping) (fun hy => absurd rfl hy)
    (fun b k hk => ?_) (fun b => ?_) (fun b hb => ?_) fun x hx _ => ?_) hn hs
  · have hk' := State.InOrder.claim_of_started (y := none) (by rw [he]; rfl) (notAtWork hw).1 b k hk
    cases k with
    | erase g =>
      obtain ⟨⟨z, hz, -⟩, -⟩ := hk'
      cases hz
    | program p => exact hk'
    | resume g => exact hk'
    | read t => exact hk'
  · rw [he, he']
    refine (standsIn_eq_none fun z hz hzs => ?_).trans (standsIn_eq_none fun z hz hzs => ?_).symm
    · exact absurd hzs (Option.some.inj hz ▸ (notAtWork hw).2.1)
    · exact absurd hzs (Option.some.inj hz ▸ (notAtWork hw').2.1)
  · rw [he] at hb
    obtain ⟨z, hz, hzb, -⟩ := hb
    obtain rfl := Option.some.inj hz
    exact ⟨e', rfl, by rw [hseg]; exact hzb, hw'⟩
  · rw [he'] at hx
    obtain rfl := Option.some.inj hx
    exact ⟨e, he, hseg.symm, hw, fun hx => absurd hx hr⟩

end Sys2Proof.Machine
end

section
/-! PROOF. The banks stay in order, continued: each operation of the engine keeps them so. -/

namespace Sys2Proof.Machine

open Sys2Proof

/-! ## The engine free -/

theorem State.InOrder.engineReadDone {w : CurrentOp → Program → Prop} {c : Bool} {y : Option EraseRec} {s : State} (h : s.InOrder w c y)
    (t : ReadTarget) : (s.engineReadDone t).InOrder w c y := by
  unfold State.engineReadDone
  cases t <;>
  · dsimp only
    split
    · exact h.readDone _
    · exact h.cfgBank _

theorem State.AtEase.of_jobs {a : Bool} {s t : State} (h : s.AtEase a) (ho : t.InOrder (fun _ _ => False) false s.suspended)
    (hj : SameJobs s t) : t.AtEase a := by
  refine h.readDone ho ?_
  by_cases hn : s.suspended = none
  · rw [hn]
    exact hj.suspended_none hn
  · exact ho.record hn

namespace State.AtWork

variable {s t : State}

theorem of_records (h : s.AtWork) (ho : t.InOrder s.issuesAt true s.suspended) (hr : SameRecords s t) : t.AtWork :=
  h.of_order ho hr.segs hr.jobs

/-- An operation on the erase in progress. -/
theorem of_erase (h : s.AtWork) {e : EraseRec} (he : s.op = .erase e) (ho : t.InOrder s.issuesAt true none) (hr : SameRecords s t) :
    t.AtWork :=
  h.of_records (by rw [h.current he]; exact ho) hr

/-- No erase is suspended. -/
theorem of_alone (ho : t.InOrder t.issuesAt true none) (hs : t.suspended = none) : t.AtWork where
  order := by
    rw [hs]
    exact ho
  standing x hx := by
    rw [hs] at hx
    cases hx
  beside := .inl hs

/-! ## Programs -/

/-- A program that the new operation issues is claimed. -/
theorem claimed (h : s.AtWork) (hn : s.noPrograms) {p : Program} (hi : s.issues p = true) : (s.claimProgram p).AtWork :=
  h.of_records (h.order.claimProgram hn hi) (sameRecords_banks fun hP => hP.claimProgram p)

/-- The program in progress is over. -/
theorem programOver (h : s.AtWork) {p : Program} (hp : s.program = some p) (pass : Bool) :
    (s.endProgram p pass).InOrder (fun _ _ => False) true s.suspended := by
  have hu : ({ s with store := s.store.programmed p.job pass, segs := (s.programCounted p pass).segs } : State).InOrder
      s.issuesAt true s.suspended :=
    h.order.same rfl rfl rfl (h.order.programs.mono rfl rfl (fun _ => id) issuesAt_stamping) h.order.record rfl
  rw [endProgram_eq, programEnded_eq]
  exact hu.programEnds hp noStamping

theorem ended (h : s.AtWork) {p : Program} (hp : s.program = some p) (pass : Bool) : (s.endProgram p pass).AtWork := by
  have ho := h.programOver hp pass
  exact h.of_jobs (ho.any (noPrograms_of_order ho fun _ _ => id) issuesAt_stamping) (sameJobs_endProgram s p pass)

theorem endedFree (h : s.AtWork) {p : Program} (hp : s.program = some p) (pass : Bool) (hn : s.noErase) :
    (s.endProgram p pass).AtEase s.op.alone := by
  have hj := sameJobs_endProgram s p pass
  exact (h.ended hp pass).atEase (noPrograms_of_order (h.programOver hp pass) fun _ _ => id) (hj.noErase hn)
    fun ha => hj.suspended_none (h.alone ha)

/-- The end of a stamp leaves the erase at STAMPING as it is. -/
theorem op_stampOver (h : s.AtWork) {p : Program} {e : EraseRec} (hop : s.op = .erase e) (hst : e.step = .stamping) (pass : Bool) :
    (s.endProgram p pass).op = .erase e := by
  have released : ∀ b, ((s.programEnded p pass).release b).op = .erase e := fun b => by
    have hrest := h.order.rest b
    rw [erase?_eq_some.2 ⟨rfl, hop⟩] at hrest
    refine (op_release_of fun k hk => ⟨some e, hrest.claim k ?_, fun x hx => ?_⟩).trans ?_
    · rw [programEnded_eq] at hk
      exact hk
    · rw [← Option.some.inj hx, hst]
      exact EraseStep.noConfusion
    · rw [programEnded_eq]
      exact hop
  have stands : (s.programEnded p pass).op = .erase e := by
    rw [programEnded_eq]
    exact hop
  rw [endProgram_eq]
  unfold State.releaseProgram
  dsimp only
  split
  · exact released _
  · split
    · exact released _
    · exact stands
  · exact stands
  · exact stands

theorem stampEnded (h : s.AtWork) {p : Program} {e : EraseRec} (hp : s.program = some p) (pass : Bool)
    (he : (s.endProgram p pass).op = .erase e) (x : SegState) : ((s.endProgram p pass).setSegFill e.seg x 0).AtEase true := by
  have hj := sameJobs_endProgram s p pass
  obtain ⟨e1, hop⟩ : ∃ e1, s.op = .erase e1 := by
    have hb := hj.op
    rw [he] at hb
    obtain ⟨e1, h1, -⟩ := CurrentOp.bare_erase hb.symm
    exact ⟨e1, h1⟩
  have hst : e1.step = .stamping := by
    have hi := h.program_issued hp
    refine issuesAt_stamping (s := s) e1 p ?_
    rw [← hop]
    exact hi
  obtain rfl : e1 = e := CurrentOp.erase.inj ((h.op_stampOver hop hst pass).symm.trans he)
  have hs := h.current hop
  have hst' := hj.suspended_none hs
  have ho := h.programOver hp pass
  rw [hs] at ho
  have hview : (s.endProgram p pass).erase? true = some e1 := erase?_eq_some.2 ⟨rfl, he⟩
  have idle : ∀ b, _ := idle_views (x := e1) (by rw [hst]; exact EraseStep.noConfusion) (by rw [hst]; rfl)
    (by rw [hst]; exact EraseStep.noConfusion)
  have hout : (s.endProgram p pass).InOrder (fun _ _ => False) false none := by
    refine ho.recast rfl rfl rfl (.of_none (noPrograms_of_order ho fun _ _ => id) noStamping) (fun hy => absurd rfl hy) (fun b k hk => ?_)
      (fun b => ?_) (fun b hw => ?_) fun x hx => (by cases hx)
    · rw [hview] at hk
      exact (idle b).1 k hk
    · rw [hview]
      exact (idle b).2.1
    · rw [hview] at hw
      exact absurd hw (idle b).2.2
  have ease : (s.endProgram p pass).AtEase true :=
    ⟨by rw [hst']; exact hout, fun x hx => (by rw [hst'] at hx; cases hx), fun _ => hst'⟩
  exact ease.of_fields rfl rfl rfl rfl

/-! ## The erase -/

/-- The segment is erased and its bank released; the stamp is claimed (R70). -/
theorem stampClaimed (ho : s.InOrder (fun _ _ => False) true none) (hs : s.suspended = none) {e e' : EraseRec} (hop : s.op = .erase e)
    (hw : e.step.atWork = true) (hseg : e'.seg = e.seg) (hst : e'.step = .stamping) :
    ((({ s with op := .erase e' } : State).release (bankOf e.seg)).claimProgram
      { role := .stamp, job := .stamp e.seg (s.erasesOf e.seg) }).AtWork := by
  have hstands : standsIn (some e') (bankOf e.seg) = none := standsIn_eq_none fun z hz hzs => by
    rw [← Option.some.inj hz, hst] at hzs
    cases hzs
  have hnone : (s.bank (bankOf e.seg)).suspended = none := by
    refine (ho.rest _).suspended.trans ?_
    rw [erase?_eq_some.2 ⟨rfl, hop⟩]
    refine standsIn_eq_none fun z hz hzs => ?_
    rw [← Option.some.inj hz] at hzs
    rw [hzs] at hw
    cases hw
  have hself : ({ s with op := .erase e' } : State).setBank (bankOf e.seg)
      { s.bank (bankOf e.seg) with suspended := standsIn (some e') (bankOf e.seg) } = { s with op := .erase e' } := by
    rw [hstands, ← hnone]
    exact State.setBank_self ({ s with op := .erase e' } : State) (bankOf e.seg)
  obtain ⟨hr, hrop⟩ := ho.eraseRests (x' := e') hop hw hseg (by rw [hst]; rfl)
  rw [hself] at hr hrop
  have hrs : (({ s with op := .erase e' } : State).release (bankOf e.seg)).suspended = none :=
    notSuspended_stable.release _ (show ({ s with op := .erase e' } : State).suspended = none from hs)
  have hrsegs : (({ s with op := .erase e' } : State).release (bankOf e.seg)).segs = s.segs := (sameOutside_release _ _).segs
  have hn := noPrograms_of_order hr fun _ _ => id
  refine (of_alone (hr.any hn issuesAt_stamping) hrs).claimed hn ?_
  unfold State.issues State.erasesOf State.seg
  rw [hrop, hrsegs]
  simp [hst, hseg]

theorem completed (h : s.AtWork) {e : EraseRec} (us : Nat) (hop : s.op = .erase e) (hw : e.step.atWork = true) :
    (s.eraseCompleted (e.ran us)).AtWork := by
  have hstep : e.step ≠ .stamping := fun hx => by
    rw [hx] at hw
    cases hw
  have hn := h.noPrograms_of_erase hop hstep
  have hn' : ({ s.bumpErases e.seg with store := (s.bumpErases e.seg).store.erased e.seg } : State).noPrograms := hn
  unfold State.eraseCompleted
  dsimp only
  rw [mapErase_of_erase (e := e) (by exact hop)]
  refine stampClaimed (s := { s.bumpErases e.seg with store := (s.bumpErases e.seg).store.erased e.seg }) (e := e)
    ((h.ordered_erase hop).same rfl rfl rfl (.of_none hn' noStamping) (fun hy => absurd rfl hy) rfl) (h.current hop) hop hw rfl rfl

/-- The erase at work is suspended, and its bank released (R73). -/
theorem suspendedIn (h : s.AtWork) {e e' : EraseRec} (hop : s.op = .erase e) (hw : e.step.atWork = true) (hseg : e'.seg = e.seg)
    (hst : e'.step = .suspended) :
    ((({ s with op := .erase e' } : State).setBank (bankOf e.seg) { s.bank (bankOf e.seg) with suspended := some e.seg }).release
      (bankOf e.seg)).AtWork := by
  have hn := h.noPrograms_of_erase hop fun hx => by
    rw [hx] at hw
    cases hw
  obtain ⟨hr, -⟩ := ((h.ordered_erase hop).any (w' := fun _ _ => False) hn noStamping).eraseRests (x' := e') hop hw hseg (by rw [hst]; rfl)
  have hstands : standsIn (some e') (bankOf e.seg) = some e.seg := by
    have hx := standsIn_some hst
    rw [hseg] at hx
    exact hx
  rw [hstands] at hr
  exact of_none hr (noPrograms_of_order hr fun _ _ => id)
    (notSuspended_stable.release _ (show ({ s with op := .erase e' } : State).suspended = none from h.current hop))

theorem suspends (h : s.AtWork) {e : EraseRec} (us : Nat) (hop : s.op = .erase e) (hw : e.step.atWork = true) :
    (s.eraseSuspends (e.ran us)).AtWork := by
  unfold State.eraseSuspends
  dsimp only
  rw [mapErase_of_erase hop]
  exact h.suspendedIn (e := e) (e' := { e.ran us with step := .suspended, suspensions := (e.ran us).suspensions + 1, runTimer := false }) hop hw rfl rfl

/-- A bank operation for an erase that ends leaves the records. -/
theorem sameJobs_freeEraseBank (s : State) (e : EraseRec) : SameJobs s (s.freeEraseBank e) :=
  (sameJobs_stable s).freeEraseBank e (.refl s)

theorem issuesAt_of_noErase {s t : State} {x : CurrentOp} (hx : ∀ e, x ≠ .erase e) (p : Program) (h : s.issuesAt x p) : t.issuesAt x p := by
  cases x with
  | erase e => exact absurd rfl (hx e)
  | idle => exact h
  | mount m => exact h
  | commit b => exact h
  | reclaim r =>
    obtain ⟨_, _, _, _, _, stage⟩ := r
    cases stage <;> exact h
  | restart r => exact h
  | configWrite w => exact h

/-- The erase in progress ends, its bank freed (R69, R73, R76, R77). -/
theorem ends (h : s.AtWork) {e e' : EraseRec} (he : s.erases e) (hst : e.step ≠ .stamping) (hb : e'.bare = e.bare)
    (hstep : e'.step = e.step) (ht : SameInside ((s.tearSegment e').freeEraseBank e') t) : t.discardErase.AtWork := by
  have hseg : e'.seg = e.seg := (congrArg EraseRec.seg hb :)
  have hj : SameJobs s ((s.tearSegment e').freeEraseBank e') :=
    (show SameJobs s (s.tearSegment e') from .of_eq rfl rfl).trans (sameJobs_freeEraseBank _ _)
  obtain hop | hsus := he
  · have hs := h.current hop
    have hn := h.noPrograms_of_erase hop hst
    have hn' : (s.tearSegment e').noPrograms := hn
    have ho : (s.tearSegment e').InOrder (fun _ _ => False) true none :=
      (h.ordered_erase hop).same rfl rfl rfl (.of_none hn' noStamping) (fun hy => absurd rfl hy) rfl
    have hview : (s.tearSegment e').erase? true = some e := erase?_eq_some.2 ⟨rfl, hop⟩
    have hfree := ho.eraseEnds (c' := false) (by rw [hview]; rfl) hseg hstep (erase?_false _) fun _ => hn'
    have hsv := hj.suspended_none hs
    have ease : ((s.tearSegment e').freeEraseBank e').AtEase true :=
      ⟨by rw [hsv]; exact hfree, fun x hx => (by rw [hsv] at hx; cases hx), fun _ => hsv⟩
    have easeT : t.AtEase true := ease.of_fields ht.banks ht.stages ht.program ht.suspended
    obtain ⟨e2, hop2, -⟩ := hj.erase hop
    unfold State.discardErase
    rw [ht.op, hop2]
    exact easeT.takes (fun _ => CurrentOp.noConfusion) (.inr rfl)
  · have hst := h.standing e hsus
    have hn : s.noErase := fun x hx => by
      rw [h.current hx] at hsus
      cases hsus
    have ho : (s.tearSegment e').InOrder s.issuesAt true (some e) := by
      have ho := h.order
      rw [hsus] at ho
      exact ho.same rfl rfl rfl (ho.programs.mono rfl rfl (fun _ => id) issuesAt_stamping) ho.record rfl
    have hview : (s.tearSegment e').erase? true = none := erase?_of_noErase (s := s.tearSegment e') hn true
    have hfree := ho.eraseEnds (c' := true) (by rw [hview]; rfl) hseg hstep hview fun hc => by
      rw [hst] at hc
      cases hc
    have hop := ht.op.trans (hj.op_eq hn)
    have hd : t.discardErase = { t with suspended := none } := by
      unfold State.discardErase
      split
      · rename_i x hx
        exact absurd (hop.symm.trans hx) (hn x)
      · rfl
    rw [hd]
    refine of_alone (hfree.same (t := { t with suspended := none }) ht.banks ht.stages ht.program
      (hfree.programs.mono ht.banks ht.program (fun p hp => ?_) issuesAt_stamping) (fun hy => absurd rfl hy) ?_) rfl
    · rw [hj.op_eq hn] at hp
      change ({ t with suspended := none } : State).issuesAt t.op p
      rw [hop]
      exact issuesAt_of_noErase hn p hp
    · exact erase?_of_op (s := (s.tearSegment e').freeEraseBank e') (t := { t with suspended := none }) ht.op true

theorem stops (h : s.AtWork) {e : EraseRec} (c : StopCause) (he : s.erases e) (hst : e.step = .running ∨ e.step = .waiting) :
    (s.mapErase (fun x => { x with step := .stopping c, runTimer := false })).AtWork := by
  have hw : e.step.atWork = true := by obtain hst | hst := hst <;> rw [hst] <;> rfl
  obtain hop | hsus := he
  · rw [mapErase_of_erase hop]
    exact atWork_stopping h hop hw rfl rfl EraseStep.noConfusion
  · have hs := h.standing e hsus
    rw [hs] at hw
    cases hw

theorem interval (h : s.AtWork) {e : EraseRec} (hop : s.op = .erase e) : (s.intervalEnds e).AtWork := by
  have h1 := atWork_mapErase h (f := fun e => { e with runTimer := false }) (fun _ => rfl) (fun _ => rfl)
  rw [mapErase_of_erase hop] at h1
  unfold State.intervalEnds
  dsimp only
  split
  · rename_i hst
    have ho := (h1.ordered_erase rfl).lookAgain (x := { e with runTimer := false }) (e := { e with runTimer := false }) rfl rfl
      (by change e.step.atWork = true; rw [hst]; rfl)
    exact h1.of_erase rfl ho (sameRecords_banks fun hP => hP.lookAgain _)
  · exact h1

theorem reasons (h : s.AtWork) : s.examineReasons.AtWork := by
  by_cases hn : s.noErase
  · rw [examineReasons_of_noErase hn]
    exact h
  · obtain ⟨e, hop⟩ := erase_of_not_noErase hn
    exact h.of_erase hop (h.ordered_erase hop).examineReasons (sameRecords_banks fun hP => hP.examineReasons)

theorem resumes (h : s.AtWork) : s.examineResume.AtWork := by
  by_cases hn : s.noErase
  · unfold State.examineResume
    split
    · rename_i e he
      exact absurd he (hn e)
    · exact h
  · obtain ⟨e, hop⟩ := erase_of_not_noErase hn
    exact h.of_erase hop (h.ordered_erase hop).examineResume (sameRecords_banks fun hP => hP.examineResume)

/-- The current reclaim is to be abandoned (R88). -/
theorem abandons (h : s.AtWork) {r : ReclaimRec} (hop : s.op = .reclaim r) :
    ({ s with op := .reclaim { r with abandoned := true } } : State).AtWork := by
  have hs := h.alone (by rw [hop]; rfl)
  have ho := h.order
  rw [hs] at ho
  refine of_alone (ho.same rfl rfl rfl (ho.programs.mono rfl rfl (fun p hp => ?_) issuesAt_stamping) (fun hy => absurd rfl hy) ?_) hs
  · rw [hop] at hp
    unfold State.issuesAt State.issues at hp ⊢
    obtain ⟨_, _, _, _, _, stage⟩ := r
    cases stage <;> exact hp
  · rw [erase?_of_noErase (s := s) fun e he => by rw [hop] at he; cases he]
    rfl

end State.AtWork

theorem order_rules : EngineRules True State.AtWork (fun a _ s => s.AtEase a) where
  freeOutside hF ht := hF.of_fields ht.banks ht.stages ht.program ht.suspended
  freeSeg _ _ _ _ hF := hF.of_fields rfl rfl rfl rfl
  freeAllocate {a _ _ _} _ hF := allocate_keeps (P := fun u => u.AtEase a) (fun _ _ _ h => h.of_fields rfl rfl rfl rfl) _ hF
  freeOpenCfg {a _ _} g hF := openConfigSegment_keeps (P := fun u => u.AtEase a) (fun _ _ _ h => h.of_fields rfl rfl rfl rfl) g hF
  freeSetAll {a _ _} m hF := setAllSegments_keeps (P := fun u => u.AtEase a) (fun _ _ _ h => h.of_fields rfl rfl rfl rfl) m hF
  freeStore _ hF := hF.of_fields rfl rfl rfl rfl
  freeIndex _ hF := hF.of_fields rfl rfl rfl rfl
  freeRest _ _ _ _ hF := hF.of_fields rfl rfl rfl rfl
  freeReadDone t hF := hF.of_jobs (hF.order.engineReadDone t) (sameRecords_banks fun hP => hP.engineReadDone t).jobs
  freeDrop _ hF := hF.of_fields rfl rfl rfl rfl
  freeTake _ hF := hF.of_fields rfl rfl rfl rfl
  freeOp _ hF := hF.of_fields rfl rfl rfl rfl
  freeReset x _ := atWork_reset _ x
  set hF hx := hF.takes (hF.fits_beside hx).1 (hF.fits_beside hx).2
  program {_ _ s x _} hF hx hi := by
    have hn : ({ s with op := x } : State).noPrograms := hF.noPrograms
    exact (hF.takes (hF.fits_beside hx).1 (hF.fits_beside hx).2).claimed hn (hi trivial)
  read t hF hx := by
    have hu := hF.takes (hF.fits_beside hx).1 (hF.fits_beside hx).2
    exact hu.of_records (hu.order.claimRead t) (sameRecords_banks fun hP => hP.claimRead t)
  erase {_ s} g _ hF := by
    have hu : (s.setSegState g .erasing).AtEase true := hF.of_fields rfl rfl rfl rfl
    exact atWork_begun hu _ rfl
  issued _ hM hp := hM.program_issued hp
  free hM hn ha hi := hM.atEase (hM.noPrograms hi) hn fun e => (ha e).elim hM.alone id
  ended pass hM hp := hM.ended hp pass
  endedFree pass hM hp hn := hM.endedFree hp pass hn
  stampEnded pass x hM hp _ he _ _ := hM.stampEnded hp pass he x
  outside hM ht := hM.of_fields ht.banks ht.stages ht.program ht.op ht.suspended ht.segs
  enqueue _ hM _ := hM.of_fields rfl rfl rfl rfl rfl rfl
  drop _ hM := hM.of_fields rfl rfl rfl rfl rfl rfl
  levels _ _ hM := hM.of_fields rfl rfl rfl rfl rfl rfl
  reset x _ := atWork_reset _ x
  resume hM hi hs := atWork_resumed hM hi hs
  suspend hM hop hst := atEase_suspended hM hop hst
  completed us hM hop hst := hM.completed us hop (by obtain hst | hst | hst := hst <;> rw [hst] <;> rfl)
  suspends us hM hop hst := hM.suspends us hop (by rw [hst]; rfl)
  ends hM he hst hb hstep ht := hM.ends he hst hb hstep ht
  stops c hM he hst := hM.stops c he hst
  holds c hM := atWork_mapErase hM (fun e => by rw [EraseRec.hold_eq]) fun e => by rw [EraseRec.hold_eq]
  interval hM hop := hM.interval hop
  reasons hM := hM.reasons
  resumes hM := hM.resumes
  abandons hM hop := hM.abandons hop
  requests x a hM hp := hM.of_records (hM.order.requestRead x a hp) (sameRecords_banks fun hP => hP.requestRead _ x a)
  lookupDone hM hr := hM.of_records (hM.order.lookupDone hr) (sameRecords_banks fun hP => (hP.readDone _ <| hP.setStage _ _ ·))
  readSlotDone hM _ := hM.of_records (hM.order.readDone _) (sameRecords_banks fun hP => hP.readDone _)
  readSlotStarts a o hM hr := hM.of_records (hM.order.readSlotStarts a o hr) (sameRecords_banks fun hP => hP.setBank _ _)
  withdraws hM hp := hM.of_records (hM.order.readWithdrawn hp) (sameRecords_banks fun hP => (hP.withdrawRead _ _ <| hP.setStage _ _ ·))
  leaves hM hp := hM.of_records (hM.order.leavesRunning hp) (sameRecords_banks fun hP => hP.setStage _ _)

end Sys2Proof.Machine
end

section
/-! PROOF. The banks stay in order, concluded: the model's checks say what the rules keep. -/

namespace Sys2Proof.Machine

open Sys2Proof

/-! ## The checks of the model -/

theorem erasesIn_iff (s : State) (b : Bank) (f : EraseStep → Bool) :
    s.erasesIn b f = true ↔ ∃ x, s.erase? true = some x ∧ bankOf x.seg = b ∧ f x.step = true := by
  unfold State.erasesIn State.erase?
  cases s.op <;> simp

theorem eraseNow_eq (s : State) : s.eraseNow = (s.erase? true).or s.suspended := by
  unfold State.eraseNow State.erase?
  cases s.op <;> rfl

theorem suspendedIn_eq (s : State) (b : Bank) : s.suspendedIn b = standsIn ((s.erase? true).or s.suspended) b := by
  unfold State.suspendedIn
  rw [eraseNow_eq]
  rfl

/-! What each part of the model's check of a bank says. -/

def State.queueFits (s : State) (b : Bank) : Bool :=
  (s.bank b).queue.all (fun q =>
    match s.stages.get q.stage with
    | .waitBank h => decide (h.addr = q.addr) && decide (bankOf q.addr.seg = b)
    | _ => false)

def State.flightFits (s : State) (b : Bank) : Bool :=
  match (s.bank b).inFlight with
  | none => true
  | some r =>
    ((s.bank b).state.readable || (decide ((s.bank b).state = .draining) && r.counted)) &&
      match r.party with
      | .lookup p =>
        match s.stages.get p with
        | .reading h => decide (r.target = .slot h.addr) && decide (bankOf h.addr.seg = b)
        | _ => false
      | _ => true

def State.claimHolds (s : State) (b : Bank) : Bool :=
  match (s.bank b).claim with
  | none => true
  | some c =>
    !(s.bank b).state.readable &&
      match c with
      | .program p => decide (p.bank? = some b)
      | .erase g => s.erasesIn b (fun st => decide (st = .claimed)) && decide (bankOf g = b)
      | .resume _ => false
      | .read _ => true

theorem queueFits_iff (s : State) (b : Bank) : s.queueFits b = true ↔
    ∀ q ∈ (s.bank b).queue, ∃ h, s.stages.get q.stage = .waitBank h ∧ h.addr = q.addr ∧ bankOf q.addr.seg = b := by
  unfold State.queueFits
  rw [List.all_eq_true]
  refine forall_congr' fun q => forall_congr' fun _ => ?_
  cases s.stages.get q.stage <;> simp

theorem flightFits_iff (s : State) (b : Bank) : s.flightFits b = true ↔ ∀ r, (s.bank b).inFlight = some r →
    ((s.bank b).state.readable = true ∨ ((s.bank b).state = .draining ∧ r.counted = true)) ∧
      ∀ p, r.party = .lookup p → ∃ h, s.stages.get p = .reading h ∧ r.target = .slot h.addr ∧ bankOf h.addr.seg = b := by
  unfold State.flightFits
  cases (s.bank b).inFlight with
  | none => simp
  | some r =>
    simp only [Option.some.injEq, forall_eq', Bool.and_eq_true]
    refine and_congr (by simp) ?_
    cases r.party with
    | lookup p =>
      simp only [ReadParty.lookup.injEq, forall_eq']
      cases s.stages.get p <;> simp
    | engine => simp
    | readSlot o => simp

theorem claimHolds_iff (s : State) (b : Bank) : s.claimHolds b = true ↔
    ∀ c, (s.bank b).claim = some c → (s.bank b).state.readable = false ∧ claimFits (s.erase? true) b c := by
  unfold State.claimHolds
  cases (s.bank b).claim with
  | none => simp
  | some c =>
    simp only [Option.some.injEq, forall_eq', Bool.and_eq_true, Bool.not_eq_true']
    refine and_congr_right fun _ => ?_
    cases c with
    | program p => exact decide_eq_true_iff
    | read t => exact iff_of_true rfl trivial
    | resume g => exact iff_of_false Bool.false_ne_true id
    | erase g =>
      dsimp only
      rw [Bool.and_eq_true, erasesIn_iff, decide_eq_true_iff]
      refine and_congr_left fun _ => exists_congr fun x => and_congr_right fun _ => ?_
      rw [decide_eq_true_iff]
      exact and_comm

/-- What a bank unit's state says, by the model's check. -/
def State.stateFits (s : State) (b : Bank) : Bool :=
  match (s.bank b).state with
  | .programming => decide (s.program.bind Program.bank? = some b)
  | .eraseRunning => s.erasesIn b EraseStep.atWork
  | .suspendWait => s.erasesIn b EraseStep.atWork
  | .free => (s.bank b).suspended.isNone
  | .eraseSuspended => (s.bank b).suspended.isSome
  | .draining => true

theorem stateFits_iff (s : State) (b : Bank) : s.stateFits b = true ↔
    ((s.bank b).state = .programming → s.program.bind Program.bank? = some b) ∧
    ((s.bank b).state = .eraseRunning ∨ (s.bank b).state = .suspendWait → worksIn (s.erase? true) b) ∧
    ((s.bank b).state = .free → (s.bank b).suspended = none) ∧
    ((s.bank b).state = .eraseSuspended → (s.bank b).suspended ≠ none) := by
  have hw : s.erasesIn b EraseStep.atWork = true ↔ worksIn (s.erase? true) b := erasesIn_iff s b _
  unfold State.stateFits
  cases (s.bank b).state <;> simp [hw, Option.isSome_iff_ne_none]

/-- What a bank's reads say, by the model's check. -/
structure State.ReadsFit (s : State) (b : Bank) : Prop where
  rest : BankRest (s.erase? true) s.suspended b (s.bank b) s.stages
  flight : ∀ r, (s.bank b).inFlight = some r → (s.bank b).state.readable = true ∨ ((s.bank b).state = .draining ∧ r.counted = true)
  held : ∀ c, (s.bank b).claim = some c → (s.bank b).state.readable = false

theorem bankSound_eq (s : State) (b : Bank) : s.bankSound b =
    (decide ((s.bank b).queue.map QueuedRead.stage).Nodup && s.queueFits b && s.flightFits b &&
      decide ((s.bank b).marker = (s.bank b).queue.countP QueuedRead.counted + (s.bank b).inFlight.toList.countP InFlight.counted) &&
      s.claimHolds b && decide ((s.bank b).suspended = s.suspendedIn b) && s.stateFits b) := rfl

theorem bankSound_iff (s : State) (b : Bank) : s.bankSound b = true ↔ s.ReadsFit b ∧ s.stateFits b = true := by
  rw [bankSound_eq, suspendedIn_eq]
  simp only [Bool.and_eq_true, decide_eq_true_eq, queueFits_iff, flightFits_iff, claimHolds_iff]
  constructor
  · rintro ⟨⟨⟨⟨⟨⟨hn, hq⟩, hi⟩, hm⟩, hc⟩, hs⟩, hst⟩
    exact ⟨⟨⟨hn, hq, fun r p hr hp => (hi r hr).2 p hp, hm, fun c hk => (hc c hk).2, hs⟩, fun r hr => (hi r hr).1, fun c hk => (hc c hk).1⟩, hst⟩
  · rintro ⟨⟨hr, hf, hh⟩, hst⟩
    exact ⟨⟨⟨⟨⟨⟨hr.nodup, hr.queued⟩, fun r hi => ⟨hf r hi, fun p hp => hr.reading r p hi hp⟩⟩, hr.marker⟩, fun c hk => ⟨hh c hk, hr.claim c hk⟩⟩,
      hr.suspended⟩, hst⟩

/-- What the bank of the work in progress says, by the model's check. -/
theorem workSound_iff (s : State) : s.workSound = true ↔
    (∀ b, s.program.bind Program.bank? = some b → (s.bank b).state = .programming) ∧
    ∀ b x, s.erase? true = some x → bankOf x.seg = b → x.step.atWork = true →
      (s.bank b).state = .eraseRunning ∨ ((s.bank b).state = .suspendWait ∧ x.step ≠ .running) := by
  unfold State.workSound
  rw [Bool.and_eq_true]
  refine and_congr ?_ ?_
  · cases s.program.bind Program.bank? <;> simp
  · unfold State.erase?
    cases s.op with
    | erase e =>
      simp only [Option.some.injEq, forall_eq', Bool.or_eq_true, Bool.and_eq_true, decide_eq_true_eq, Bool.not_eq_true']
      cases e.step.atWork <;> simp
    | _ => simp

theorem banks_iff (s : State) : ([Bank.b0, .b1, .b2, .b3].all s.bankSound = true ∧ s.workSound = true) ↔
    (∀ b, BankRest (s.erase? true) s.suspended b (s.bank b) s.stages) ∧ ∀ b, BankWork (s.erase? true) b (s.bank b) s.program := by
  have hall : [Bank.b0, .b1, .b2, .b3].all s.bankSound = true ↔ ∀ b, s.bankSound b = true := by
    simp only [List.all_cons, List.all_nil, Bool.and_eq_true, and_true]
    exact ⟨fun ⟨h0, h1, h2, h3⟩ b => by cases b <;> assumption, fun h => ⟨h _, h _, h _, h _⟩⟩
  rw [hall, workSound_iff]
  constructor
  · rintro ⟨hb, hp, he⟩
    refine ⟨fun b => ((bankSound_iff s b).1 (hb b)).1.rest, fun b => ?_⟩
    obtain ⟨hf, hst⟩ := (bankSound_iff s b).1 (hb b)
    obtain ⟨hprog, her, hfree, hsus⟩ := (stateFits_iff s b).1 hst
    exact ⟨hf.flight, hf.held, ⟨hprog, hp b⟩, her, fun x => he b x, hfree, hsus⟩
  · rintro ⟨hr, hw⟩
    refine ⟨fun b => (bankSound_iff s b).2 ⟨⟨hr b, (hw b).flight, (hw b).held⟩, (stateFits_iff s b).2
      ⟨(hw b).programming.1, (hw b).erasing, (hw b).free, (hw b).eraseSuspended⟩⟩, fun b => (hw b).programming.2, fun b => (hw b).running⟩

end Sys2Proof.Machine
end

section
/-! PROOF. The banks in order: the programs claimed and in progress, and the statement. -/

namespace Sys2Proof.Machine

open Sys2Proof

/-! ## Programs -/

theorem claimed?_iff (u : BankUnit) (p : Program) : u.claimed? = some p ↔ u.claim = some (.program p) := by
  unfold BankUnit.claimed?
  cases u.claim with
  | none => simp
  | some k => cases k <;> simp

theorem length_filterMap_le_one {α β : Type} (f : α → Option β) {l : List α} (hl : l.Nodup) :
    (l.filterMap f).length ≤ 1 ↔ ∀ a ∈ l, ∀ x, f a = some x → ∀ b ∈ l, ∀ y, f b = some y → b = a := by
  induction l with
  | nil => exact iff_of_true (Nat.zero_le _) fun a ha => absurd ha List.not_mem_nil
  | cons z l ih =>
    obtain ⟨hz, hl⟩ := List.nodup_cons.1 hl
    cases hf : f z with
    | none =>
      rw [List.filterMap_cons_none hf, ih hl]
      have listed : ∀ a ∈ z :: l, ∀ x, f a = some x → a ∈ l := fun a ha x hx =>
        (List.mem_cons.1 ha).resolve_left fun he => by
          rw [he, hf] at hx
          cases hx
      exact ⟨fun h a ha x hx b hb y hy => h a (listed a ha x hx) x hx b (listed b hb y hy) y hy,
        fun h a ha x hx b hb y hy => h a (List.mem_cons_of_mem _ ha) x hx b (List.mem_cons_of_mem _ hb) y hy⟩
    | some w =>
      rw [List.filterMap_cons_some hf, List.length_cons]
      constructor
      · intro h a ha x hx b hb y hy
        have hnil : l.filterMap f = [] := List.eq_nil_of_length_eq_zero (by omega)
        have first : ∀ c ∈ z :: l, ∀ v, f c = some v → c = z := fun c hc v hv =>
          (List.mem_cons.1 hc).resolve_right fun hm => by
            have hn := List.filterMap_eq_nil_iff.1 hnil c hm
            rw [hn] at hv
            cases hv
        rw [first a ha x hx, first b hb y hy]
      · intro h
        have hnil : l.filterMap f = [] := List.filterMap_eq_nil_iff.2 fun c hc => by
          cases hv : f c with
          | none => rfl
          | some v =>
            have he := h z List.mem_cons_self w hf c (List.mem_cons_of_mem _ hc) v hv
            exact absurd (he ▸ hc) hz
        rw [hnil]
        exact Nat.le_refl 1

/-- The programs claimed, by bank. -/
def State.claims (s : State) : List Program :=
  [Bank.b0, .b1, .b2, .b3].filterMap fun b => (s.bank b).claimed?

theorem programs_eq (s : State) : s.programs = s.program.toList ++ s.claims := rfl

theorem mem_banks (b : Bank) : b ∈ [Bank.b0, .b1, .b2, .b3] := by
  cases b <;> decide

theorem mem_claims (s : State) (p : Program) : p ∈ s.claims ↔ ∃ b, (s.bank b).claim = some (.program p) := by
  unfold State.claims
  simp only [List.mem_filterMap, claimed?_iff]
  exact exists_congr fun b => and_iff_right (mem_banks b)

/-- One bank at most has a program claimed. -/
theorem claims_length (s : State) : s.claims.length ≤ 1 ↔
    ∀ b p, (s.bank b).claim = some (.program p) → ∀ b' q, (s.bank b').claim = some (.program q) → b' = b := by
  unfold State.claims
  rw [length_filterMap_le_one _ (by decide)]
  simp only [claimed?_iff, mem_banks, true_implies]

theorem programsSound_iff (s : State) : s.programsSound = true ↔ s.programs.length ≤ 1 ∧ ∀ p ∈ s.programs, s.issues p = true := by
  unfold State.programsSound
  obtain h | ⟨p, h⟩ | ⟨p, q, l, h⟩ : s.programs = [] ∨ (∃ p, s.programs = [p]) ∨ ∃ p q l, s.programs = p :: q :: l := by
    cases s.programs with
    | nil => exact .inl rfl
    | cons p l =>
      cases l with
      | nil => exact .inr (.inl ⟨p, rfl⟩)
      | cons q l => exact .inr (.inr ⟨p, q, l, rfl⟩)
  all_goals
    rw [h]
    simp

theorem programsOk_iff (s : State) : s.ProgramsOk s.issuesAt ↔ s.programsSound = true := by
  rw [programsSound_iff, programs_eq]
  have hmem : ∀ p, p ∈ s.program.toList ++ s.claims ↔ s.program = some p ∨ ∃ b, (s.bank b).claim = some (.program p) := fun p => by
    rw [List.mem_append, Option.mem_toList, mem_claims]
  have hlen : (s.program.toList ++ s.claims).length ≤ 1 ↔ (∀ b p, (s.bank b).claim = some (.program p) →
      s.program = none ∧ ∀ b' q, (s.bank b').claim = some (.program q) → b' = b) := by
    rw [List.length_append]
    constructor
    · intro hl b p hp
      have hpos := List.length_pos_of_mem ((mem_claims s p).2 ⟨b, hp⟩)
      refine ⟨?_, (claims_length s).1 (by omega) b p hp⟩
      cases hx : s.program with
      | none => rfl
      | some q =>
        rw [hx, Option.toList_some, List.length_singleton] at hl
        omega
    · intro h
      have hone := (claims_length s).2 fun b p hp => (h b p hp).2
      cases hc : s.claims with
      | nil => cases s.program <;> simp
      | cons p l =>
        obtain ⟨b, hb⟩ := (mem_claims s p).1 (by rw [hc]; exact List.mem_cons_self)
        rw [(h b p hb).1, ← hc]
        simpa using hone
  rw [hlen]
  constructor
  · intro h
    exact ⟨h.single, fun p hp => h.issued p ((hmem p).1 hp)⟩
  · rintro ⟨hs, hi⟩
    exact ⟨fun p hp => hi p ((hmem p).2 hp), hs, issuesAt_stamping⟩

theorem suspendedSound_iff (s : State) : s.suspendedSound = true ↔ s.standing := by
  unfold State.suspendedSound State.standing
  cases s.suspended <;> simp

/-! ## In order -/

theorem ordered_iff (s : State) : s.ordered = true ↔ s.canonical = true ∧ s.heldByReset = true ∧ s.oneErase = true ∧ s.AtWork := by
  have hshape : s.ordered = true ↔ s.canonical = true ∧ s.heldByReset = true ∧ s.oneErase = true ∧ s.suspendedSound = true ∧
      ([Bank.b0, .b1, .b2, .b3].all s.bankSound = true ∧ s.workSound = true) ∧ s.programsSound = true := by
    unfold State.ordered
    simp only [Bool.and_eq_true, and_assoc]
  rw [hshape, banks_iff, suspendedSound_iff, ← programsOk_iff]
  constructor
  · rintro ⟨hc, hh, ho, hs, ⟨hr, hw⟩, hp⟩
    obtain ⟨hE, -⟩ := (oneErase_iff s).1 ⟨hc, ho⟩
    exact ⟨hc, hh, ho, ⟨hr, hw, hp, fun _ => rfl⟩, hs, hE.beside⟩
  · rintro ⟨hc, hh, ho, h⟩
    exact ⟨hc, hh, ho, h.standing, ⟨h.order.rest, h.order.work⟩, h.order.programs⟩

/-- HELD, the engine is free. -/
theorem atEase_of_held {s : State} (hh : s.heldByReset = true) (ho : s.oneErase = true) (hc : s.canonical = true) (h : s.AtWork)
    (hx : s.opState = .held) : s.AtEase true := by
  have hr : s.AtRest := ((heldByReset_iff s).1 hh).resolve_right fun h => by
    rw [hx] at h
    exact absurd h.1 Bool.false_ne_true
  obtain ⟨-, hi⟩ := (oneErase_iff s).1 ⟨hc, ho⟩
  exact h.atEase (h.noPrograms (issues_of_idle hr.op)) hr.noErase fun _ => hi hr.op

theorem ordered_exec {c : Instr} {s t : State} (h : s.ordered = true) (he : exec c s = .next t) (hc : t.canonical = true)
    (ho : t.oneErase = true) : t.ordered = true := by
  obtain ⟨hcs, hh, hos, hM⟩ := (ordered_iff s).1 h
  have held : s.opState = .held → ({ s with resetAsserted := false } : State).AtEase true := fun hx =>
    (atEase_of_held hh hos hcs hM hx).of_fields rfl rfl rfl rfl
  have ht := order_rules.calm_exec (D := False) False.elim held ⟨hM, False.elim⟩ he
  exact (ordered_iff t).2 ⟨hc, heldByReset_exec hh he, ho, ht.1⟩

/-! ## What the order of the banks says -/

theorem length_eq_counts (l : List Port) : l.length = l.count .east + l.count .west + l.count .tap := by
  induction l with
  | nil => rfl
  | cons p l ih =>
    rw [List.length_cons, ih]
    cases p <;> simp <;> omega

/-- In order, a bank's queue holds at most one read of each lookup stage. -/
theorem queue_le_three {u : BankUnit} (h : (u.queue.map QueuedRead.stage).Nodup) : u.queue.length ≤ 3 := by
  have hl := length_eq_counts (u.queue.map QueuedRead.stage)
  have once := List.nodup_iff_count.1 h
  have heast := once .east
  have hwest := once .west
  have htap := once .tap
  rw [List.length_map] at hl
  omega

theorem marker_le_four {e y : Option EraseRec} {b : Bank} {u : BankUnit} {st : PerPort Stage} (h : BankRest e y b u st) : u.marker ≤ 4 := by
  have hq : u.queue.countP QueuedRead.counted ≤ 3 := Nat.le_trans List.countP_le_length (queue_le_three h.nodup)
  have hi : u.inFlight.toList.countP InFlight.counted ≤ 1 := Nat.le_trans List.countP_le_length (by cases u.inFlight <;> simp)
  rw [h.marker]
  omega

theorem standsIn_eq_some {e : Option EraseRec} {b : Bank} {g : Nat} :
    standsIn e b = some g ↔ ∃ x, e = some x ∧ x.step = .suspended ∧ x.seg = g ∧ bankOf g = b := by
  unfold standsIn
  cases e with
  | none => simp
  | some x =>
    simp only [Option.ite_none_right_eq_some, Option.some.injEq, exists_eq_left', and_assoc]
    refine and_congr_right fun _ => ?_
    constructor
    · rintro ⟨hb, rfl⟩
      exact ⟨rfl, hb⟩
    · rintro ⟨rfl, hb⟩
      exact ⟨hb, rfl⟩

/-- The erase in progress is the current one or the suspended one. -/
theorem State.AtWork.erases_iff {s : State} (h : s.AtWork) (x : EraseRec) : (s.erase? true).or s.suspended = some x ↔ s.erases x := by
  rw [← eraseNow_eq]
  by_cases hn : s.noErase
  · rw [eraseNow_of_noErase hn]
    exact ⟨.inr, fun hx => hx.resolve_left (hn x)⟩
  · obtain ⟨e, hop⟩ := erase_of_not_noErase hn
    rw [eraseNow_of_erase hop]
    refine ⟨fun hx => .inl (Option.some.inj hx ▸ hop), fun hx => ?_⟩
    obtain hx | hx := hx
    · exact congrArg some (CurrentOp.erase.inj (hop.symm.trans hx))
    · rw [h.current hop] at hx
      cases hx

theorem atWork_iff (st : EraseStep) : st.atWork = true ↔
    st = .running ∨ st = .waiting ∨ st = .suspending ∨ ∃ c : StopCause, st = .stopping c := by
  cases st <;> simp [EraseStep.atWork]

/-- Settles O12, with the banks' own invariant kept by every operation of the engine (`order_rules`). -/
theorem stepKeepsTheBanksInOrder : Obligations.StepKeepsTheBanksInOrder := by
  refine ⟨fun s t h hs => ?_, fun s h => ?_⟩
  · obtain ⟨hc, hh, ho, -⟩ := (ordered_iff s).1 h
    obtain ⟨-, rfl⟩ | ⟨c, rest, -, he⟩ := step_cases hs
    · exact h
    · exact ordered_exec (s := { s with pending := rest }) h he (step_keeps canonical_stable (fun _ _ h => h) canonical_erased hc hs)
        (stepKeepsOneOpenOneErasingAndHeldWithReset.2.2.1 s t hc hh ho hs)
  · obtain ⟨-, -, -, hM⟩ := (ordered_iff s).1 h
    refine ⟨((programsSound_iff s).1 ((programsOk_iff s).1 hM.order.programs)).1, fun b => ?_⟩
    have hr := hM.order.rest b
    have hw := hM.order.work b
    refine ⟨fun g => ?_, hw.free, hw.eraseSuspended, queue_le_three hr.nodup, marker_le_four hr, fun hi => ?_,
      hw.programming.trans Option.bind_eq_some_iff, fun hs => ?_, ?_⟩
    · rw [hr.suspended, standsIn_eq_some]
      exact exists_congr fun x => and_congr_left fun _ => hM.erases_iff x
    · obtain ⟨r, hr⟩ := Option.ne_none_iff_exists'.1 hi
      obtain hx | ⟨hx, -⟩ := hw.flight r hr
      · cases hst : (s.bank b).state with
        | free => exact .inl rfl
        | eraseSuspended => exact .inr (.inr rfl)
        | draining => exact .inr (.inl rfl)
        | programming => rw [hst] at hx; cases hx
        | eraseRunning => rw [hst] at hx; cases hx
        | suspendWait => rw [hst] at hx; cases hx
      · exact .inr (.inl hx)
    · obtain ⟨x, hx, hb, ha⟩ := hw.erasing hs
      exact ⟨x, (erase?_eq_some.1 hx).2, hb, (atWork_iff _).1 ha⟩
    · rintro ⟨x, hop, hb, ha⟩
      exact (hw.running x (erase?_eq_some.2 ⟨rfl, hop⟩) hb ((atWork_iff _).2 ha)).imp id And.left

end Sys2Proof.Machine
end

section
/-! PROOF. The working invariant is not kept: `Mount.recordsSound` leaves the keys of the configuration slots recorded by SLOT SCAN free,
while `State.repairSound` asks that a repair lies in a segment that exists. -/

namespace Sys2Proof.Machine

open Sys2Proof

/-- The last read of SLOT SCAN, of configuration segment CB, with a MARGIN_FAIL recorded under a key of no configuration slot. -/
def scanWithStrayKey : State :=
  { State.reset with
    resetAsserted := false
    opState := .mounting
    op := .mount
      { phase := .slotScan, headers := List.replicate 33 none ++ [some 0], scan := ⟨33, 15⟩, slots := [],
        cfgSlots := [(1000, .indeterminate)], cands := [], repairs := [] }
    cfgBank := { CfgBank.reset with inFlight := some (.slot ⟨33, 15⟩) }
    pending := [.slotScanReadCompletion false] }

theorem scanWithStrayKey_sound : scanWithStrayKey.sound = true := by decide

/-- RESOLVE lists a VOID for the stray key, in a segment 94 that does not exist; the banks stand in order all the same. -/
theorem scanWithStrayKey_next : ∃ (t : State) (m : Mount), step scanWithStrayKey = .next t ∧ t.op = .mount m ∧
    m.repairs.map Repair.addr = [⟨94, 8⟩] ∧ t.ordered = true ∧ t.opSound = false :=
  ⟨_, _, rfl, rfl, by decide, by decide, by decide⟩

theorem not_sound_of_opSound {s : State} (h : s.opSound = false) : s.sound ≠ true := fun hs => by
  unfold State.sound at hs
  rw [h, Bool.and_false] at hs
  cases hs

/-- Refutes O13: the completion of the last read of `scanWithStrayKey` leads from a state that satisfies the invariant to one whose
repair list names a slot of no segment. -/
theorem not_stepKeepsTheIndexOnTheStore : ¬ Obligations.StepKeepsTheIndexOnTheStore := by
  rintro ⟨keeps, -⟩
  obtain ⟨t, m, hstep, -, -, -, hop⟩ := scanWithStrayKey_next
  exact not_sound_of_opSound hop (keeps scanWithStrayKey t scanWithStrayKey_sound hstep)

end Sys2Proof.Machine
end
